-- ==== Sys2Proof/Word.lean ====
section
/-! DEFINITION. The word types of DisExp-CORE (spec/00_scope.md R8): bytes, 32-bit words, cache buckets, pixels. -/
namespace Sys2Proof

/-- `u8` of R8. -/
abbrev Byte := BitVec 8

/-- `u32` of R8: sizes, offsets, cursors. -/
abbrev Word := BitVec 32

/-- A cache slot index, 0..63 (R11 "Bucket"). -/
abbrev Bucket := BitVec 6

/-- A `Pixel` record of R8. Its derived equality is R12: all four fields match. -/
structure Pixel where
  r : Byte
  g : Byte
  b : Byte
  a : Byte
deriving DecidableEq, Repr

end Sys2Proof
end

