-- ==== Sys2Proof/Config.lean ====
section
/-! DEFINITION. What an implementation fixes (the parameters of spec/00_scope.md R6) and the free values.
The default values of the parameters stand in Sys2Proof/Machine/Defaults.lean. -/
namespace Sys2Proof

/-- The parameter `MAGIC`: four bytes, `b0` at the lowest offset (R6, R140). -/
structure Magic where
  b0 : Byte
  b1 : Byte
  b2 : Byte
  b3 : Byte
deriving DecidableEq, Repr

/-- The tag constants of R6 and R72. -/
structure Tags where
  index : BitVec 2
  diff  : BitVec 2
  luma  : BitVec 2
  run   : BitVec 2
  rgb   : Byte
  rgba  : Byte
deriving DecidableEq, Repr

/-- The parameter `HASH` as plain data: the published mix of R181, or another mix known by its number only. -/
inductive HashMix where
  | published
  | other (k : Nat)
deriving DecidableEq, Repr

/-- The parameter `RUN_LIT3` of R154: raw bytes after the RGBA tag in RUN for a 3-channel image. -/
inductive RunLit3 where
  | four
  | three
deriving DecidableEq, Repr

/-- The parameters of R6. No step writes one. -/
structure Config where
  maxPixels : Word
  magic     : Magic
  tags      : Tags
  hash      : HashMix
  runLit3   : RunLit3
deriving DecidableEq, Repr

/-- A hash mix the spec does not name: any function of the pixel (R6, R181: `HASH` is a parameter). No body: nothing
constrains it (log entry 3). -/
opaque Config.hashOther : Nat → Pixel → Bucket

/-- FREE VALUE (log entries 5 and 6): the n-th unspecified u32 (R38, R23). No body: nothing constrains it. -/
opaque Config.freeWord : Nat → Word

/-- FREE VALUE (log entry 6): the n-th unspecified u8 (R23). No body: nothing constrains it. -/
opaque Config.freeByte : Nat → Byte

end Sys2Proof
end

