-- ==== Sys2Proof/Machine/Defaults.lean ====
section
/-! DEFINITION. The default values of the parameters (spec/00_scope.md R6). The spec marks them "from general knowledge,
not in source" (spec/93_implementation_defined.md B2-B5; log entry 4). -/
namespace Sys2Proof.Machine

/-- `71 6F 69 66` (R6). -/
def defaultMagic : Magic := { b0 := 0x71#8, b1 := 0x6F#8, b2 := 0x69#8, b3 := 0x66#8 }

/-- R72. -/
def defaultTags : Tags :=
  { index := 0b00#2, diff := 0b01#2, luma := 0b10#2, run := 0b11#2, rgb := 0xFE#8, rgba := 0xFF#8 }

/-- R6: `MAX_PIXELS` 400000000, the published hash mix, `RUN_LIT3` 4. -/
def defaultConfig : Config :=
  { maxPixels := 400000000#32, magic := defaultMagic, tags := defaultTags, hash := .published, runLit3 := .four }

end Sys2Proof.Machine
end

