-- ==== Sys2Proof/Syntax.lean ====
section
/-! DEFINITION. The units of the output stream (spec/30_encoding.md R79), one constructor per row of
spec/opcode_table.json, with the operands as the spec spells them: signed quantities before their bias is added. -/
namespace Sys2Proof

inductive Instr where
  /-- `INDEX i`: the pixel stands in cache slot `i` (R183). -/
  | index (bucket : Bucket)
  /-- `DIFF dr, dg, db`: signed deltas (R162). -/
  | diff (dr dg db : Int)
  /-- `LUMA dg, dr_g, db_g` (R163). -/
  | luma (dg drg dbg : Int)
  /-- `RUN n`: the run length, not the payload (R152). -/
  | run (n : BitVec 6)
  /-- `RGB r, g, b` (R164). -/
  | rgb (r g b : Byte)
  /-- `RGBA r, g, b, a` (R154). -/
  | rgba (r g b a : Byte)
  /-- `HEADER w, h, ch, cs` (R140); the magic bytes are a parameter. -/
  | header (width height : Word) (channels colorspace : Byte)
  /-- `END` (R141). -/
  | endMarker
deriving DecidableEq, Repr

end Sys2Proof
end

