-- ==== Sys2Proof/Decode.lean ====
section
/-! DEFINITION. The byte forms of the units (spec/30_encoding.md R70-R77, opcode_table.json), the decoder of a stream
(R74, R75: the first byte gives the length) and the encoder. A header and an end marker are known by where they stand
in the stream, not by their bytes (R77; log entry 17). -/
namespace Sys2Proof

/-! ### Decoding -/

/-- Where in a stream a unit stands (R70). `shortLit`: OP_RGBA carries no alpha byte there (R154 with `RUN_LIT3` = 3). -/
inductive Place where
  | streamStart
  | opcode (shortLit : Bool)
  | streamEnd
deriving DecidableEq, Repr

/-- Why bytes are no unit. -/
inductive DecodeError where
  /-- The stream ends inside the unit. -/
  | truncated
  /-- The first four bytes are not `MAGIC` (R70). -/
  | badMagic
  /-- The last bytes are not the end marker (R70). -/
  | badEndMarker
  /-- An OP_RUN payload of 62 or 63 (R76); the default tags give those bytes to RGB and RGBA. -/
  | reservedRun
  /-- A first byte that no tag names: not with well-formed tags (R77). -/
  | unassigned
deriving DecidableEq, Repr

/-- The 6-bit payload of a byte (R71). -/
def payloadOf (b : Byte) : BitVec 6 := b.extractLsb' 0 6

/-- The 2-bit tag of a byte (R71). -/
def tagOf (b : Byte) : BitVec 2 := b.extractLsb' 6 2

/-- Take the bias off a payload field (R73, R74). -/
def unbias {w : Nat} (field : BitVec w) (bias : Int) : Int := (field.toNat : Int) - bias

/-- A big-endian 32-bit word (R56). -/
def ofBigEndian (b3 b2 b1 b0 : Byte) : Word := b3 ++ b2 ++ b1 ++ b0

/-- OP_RGBA after its tag (R71 format T8; without the alpha byte, the alpha is that of a 3-channel pixel, R55). -/
def decodeRgba (shortLit : Bool) : List Byte → Except DecodeError (Instr × List Byte)
  | r :: g :: b :: rest =>
      if shortLit then .ok (.rgba r g b 255#8, rest)
      else match rest with
        | a :: rest => .ok (.rgba r g b a, rest)
        | [] => .error .truncated
  | _ => .error .truncated

/-- OP_RGB after its tag (R71 format T8). -/
def decodeRgb : List Byte → Except DecodeError (Instr × List Byte)
  | r :: g :: b :: rest => .ok (.rgb r g b, rest)
  | _ => .error .truncated

/-- OP_LUMA, first byte `b0` (R71 format T2L). -/
def decodeLuma (b0 : Byte) : List Byte → Except DecodeError (Instr × List Byte)
  | b1 :: rest =>
      .ok (.luma (unbias (payloadOf b0) 32) (unbias (b1.extractLsb' 4 4) 8) (unbias (b1.extractLsb' 0 4) 8), rest)
  | [] => .error .truncated

/-- One opcode, the tests in the order of R75. -/
def decodeOpcode (t : Tags) (shortLit : Bool) : List Byte → Except DecodeError (Instr × List Byte)
  | [] => .error .truncated
  | b0 :: rest =>
      if b0 = t.rgba then decodeRgba shortLit rest
      else if b0 = t.rgb then decodeRgb rest
      else if tagOf b0 = t.luma then decodeLuma b0 rest
      else if tagOf b0 = t.index then .ok (.index (payloadOf b0), rest)
      else if tagOf b0 = t.diff then
        .ok (.diff (unbias (b0.extractLsb' 4 2) 2) (unbias (b0.extractLsb' 2 2) 2) (unbias (b0.extractLsb' 0 2) 2), rest)
      else if tagOf b0 = t.run then
        if 62 ≤ (payloadOf b0).toNat then .error .reservedRun else .ok (.run (payloadOf b0 + 1#6), rest)
      else .error .unassigned

/-- The stream header (R70). -/
def decodeHeader (m : Magic) : List Byte → Except DecodeError (Instr × List Byte)
  | m0 :: m1 :: m2 :: m3 :: w3 :: w2 :: w1 :: w0 :: h3 :: h2 :: h1 :: h0 :: c :: s :: rest =>
      if m0 = m.b0 ∧ m1 = m.b1 ∧ m2 = m.b2 ∧ m3 = m.b3 then
        .ok (.header (ofBigEndian w3 w2 w1 w0) (ofBigEndian h3 h2 h1 h0) c s, rest)
      else .error .badMagic
  | _ => .error .truncated

/-- The end marker (R70). -/
def decodeEnd : List Byte → Except DecodeError (Instr × List Byte)
  | z0 :: z1 :: z2 :: z3 :: z4 :: z5 :: z6 :: one :: rest =>
      if z0 = 0 ∧ z1 = 0 ∧ z2 = 0 ∧ z3 = 0 ∧ z4 = 0 ∧ z5 = 0 ∧ z6 = 0 ∧ one = 1 then .ok (.endMarker, rest)
      else .error .badEndMarker
  | _ => .error .truncated

/-- The unit at the head of the bytes, and the bytes after it. -/
def decode (c : Config) (place : Place) (bytes : List Byte) : Except DecodeError (Instr × List Byte) :=
  match place with
  | .streamStart => decodeHeader c.magic bytes
  | .opcode shortLit => decodeOpcode c.tags shortLit bytes
  | .streamEnd => decodeEnd bytes

/-- The length the first byte alone gives an opcode (R75), for the default tags in the order of R75. -/
def lengthOfFirstByte (b0 : Byte) : Nat :=
  if b0 = 0xFF#8 then 5 else if b0 = 0xFE#8 then 4 else if tagOf b0 = 0b10#2 then 2 else 1

/-! ### The host's table words -/

/-- The bytes of a table word: bits 8k+7..8k are byte k, every bit at or above `nbits` is 0, fourteen bytes (the longest
unit). -/
def tableBytes (nbits w : Nat) : List Byte :=
  (List.range 14).map fun k => BitVec.ofNat 8 ((w % 2 ^ nbits) >>> (8 * k))

/-- The place of a table row: the two records are known by their lengths, 14 and 8 bytes (log entry 17). -/
def tablePlace (nbits : Nat) : Place :=
  if nbits = 112 then .streamStart else if nbits = 64 then .streamEnd else .opcode false

/-- What the decoder reads from a table word, under the default parameters. -/
def decodeTableWord (nbits w : Nat) : Option Instr :=
  match decode Machine.defaultConfig (tablePlace nbits) (tableBytes nbits w) with
  | .ok (i, _) => some i
  | .error _ => none

/-! ### Encoding -/

/-- Add the bias and truncate to the field's width (R73). -/
def biased (w : Nat) (v bias : Int) : BitVec w := BitVec.ofInt w (v + bias)

/-- OP_INDEX: tag, bucket (R183). -/
def indexBytes (t : Tags) (bucket : Bucket) : List Byte := [t.index ++ bucket]

/-- OP_DIFF: tag, dr + 2, dg + 2, db + 2 (R162). -/
def diffBytes (t : Tags) (dr dg db : Int) : List Byte := [t.diff ++ biased 2 dr 2 ++ biased 2 dg 2 ++ biased 2 db 2]

/-- OP_LUMA: tag, dg + 32; then dr_g + 8 in the high nibble, db_g + 8 in the low one (R163). -/
def lumaBytes (t : Tags) (dg drg dbg : Int) : List Byte := [t.luma ++ biased 6 dg 32, biased 4 drg 8 ++ biased 4 dbg 8]

/-- OP_RUN: tag, n - 1 (R152). -/
def runBytes (t : Tags) (n : BitVec 6) : List Byte := [t.run ++ (n - 1#6)]

/-- OP_RGB: tag byte, r, g, b (R164). -/
def rgbBytes (t : Tags) (r g b : Byte) : List Byte := [t.rgb, r, g, b]

/-- OP_RGBA: tag byte, r, g, b, and a unless the short form is chosen (R154). -/
def rgbaBytes (t : Tags) (shortLit : Bool) (r g b a : Byte) : List Byte :=
  [t.rgba, r, g, b] ++ (if shortLit then [] else [a])

/-- Four bytes, the most significant first (R56, R140). -/
def bigEndian (w : Word) : List Byte :=
  [w.extractLsb' 24 8, w.extractLsb' 16 8, w.extractLsb' 8 8, w.extractLsb' 0 8]

/-- The header: magic, width, height, channels, colorspace (R140). -/
def headerBytes (m : Magic) (width height : Word) (channels colorspace : Byte) : List Byte :=
  [m.b0, m.b1, m.b2, m.b3] ++ bigEndian width ++ bigEndian height ++ [channels, colorspace]

/-- The end marker (R141). -/
def endBytes : List Byte := [0#8, 0#8, 0#8, 0#8, 0#8, 0#8, 0#8, 1#8]

/-- The bytes of a unit. -/
def encode (c : Config) (shortLit : Bool) : Instr → List Byte
  | .index bucket => indexBytes c.tags bucket
  | .diff dr dg db => diffBytes c.tags dr dg db
  | .luma dg drg dbg => lumaBytes c.tags dg drg dbg
  | .run n => runBytes c.tags n
  | .rgb r g b => rgbBytes c.tags r g b
  | .rgba r g b a => rgbaBytes c.tags shortLit r g b a
  | .header w h ch cs => headerBytes c.magic w h ch cs
  | .endMarker => endBytes

/-- Where a unit stands in a stream (R70). -/
def placeOf (shortLit : Bool) : Instr → Place
  | .header _ _ _ _ => .streamStart
  | .endMarker => .streamEnd
  | .index _ => .opcode shortLit
  | .diff _ _ _ => .opcode shortLit
  | .luma _ _ _ => .opcode shortLit
  | .run _ => .opcode shortLit
  | .rgb _ _ _ => .opcode shortLit
  | .rgba _ _ _ _ => .opcode shortLit

/-- The length of a unit in bytes (R70, R75, R154). -/
def unitLength (shortLit : Bool) : Instr → Nat
  | .index _ => 1
  | .diff _ _ _ => 1
  | .luma _ _ _ => 2
  | .run _ => 1
  | .rgb _ _ _ => 4
  | .rgba _ _ _ _ => if shortLit then 4 else 5
  | .header _ _ _ _ => 14
  | .endMarker => 8

/-- What a unit names to a consumer of the stream that holds `prev` and `cache` (R74, informative there): the pixels, in
order. The two records name none. -/
def namedPixels (prev : Pixel) (cache : Vector Pixel 64) : Instr → List Pixel
  | .index bucket => [cache[bucket.toNat]]
  | .diff dr dg db =>
      [{ r := prev.r + BitVec.ofInt 8 dr, g := prev.g + BitVec.ofInt 8 dg, b := prev.b + BitVec.ofInt 8 db, a := prev.a }]
  | .luma dg drg dbg =>
      [{ r := prev.r + BitVec.ofInt 8 (dg + drg), g := prev.g + BitVec.ofInt 8 dg,
         b := prev.b + BitVec.ofInt 8 (dg + dbg), a := prev.a }]
  | .run n => List.replicate n.toNat prev
  | .rgb r g b => [{ r := r, g := g, b := b, a := prev.a }]
  | .rgba r g b a => [{ r := r, g := g, b := b, a := a }]
  | .header _ _ _ _ => []
  | .endMarker => []

end Sys2Proof
end

