-- ==== Sys2Proof/Machine/State.lean ====
section
/-! DEFINITION. The state of one block instance (spec/10_state.md R20 and the launch arguments of spec/00_scope.md R6),
the host's moves, the reasons a step can stop, and power-on (R39). -/
namespace Sys2Proof.Machine

/-- `PHASE` (R31). -/
inductive Phase where
  | idle
  | validate
  | alloc
  | header
  | pixels
  | footer
  | done
  | fail
deriving DecidableEq, Repr

/-- `ERR` (R32). -/
inductive ErrorKind where
  | none
  | invalidDescriptor
  | allocationFailure
deriving DecidableEq, Repr

/-- The operands of START and its launch arguments (R100): the buffer's length is `IN_LEN`, `allocOk` the allocator's
answer. -/
structure StartCmd where
  sel         : BitVec 3
  inPresent   : Bool
  lenPresent  : Bool
  descPresent : Bool
  width       : Word
  height      : Word
  channels    : Byte
  colorspace  : Byte
  buffer      : List Byte
  allocOk     : Bool
deriving DecidableEq, Repr

/-- What the host does at one step boundary (R115): nothing, or it presents a START. It has no other move (R62). -/
inductive HostMove where
  | quiet
  | start (cmd : StartCmd)
deriving DecidableEq, Repr

/-- The two address spaces (R50). -/
inductive Space where
  | IN
  | OUT
deriving DecidableEq, Repr

/-- A buffer: cells in one canonical form (`Memory.wf`, Sys2Proof/Machine/Ops.lean). -/
abbrev Memory := List Host.Cell

/-- The state tuple of R20, the launch arguments and parameters of R6, and the model's own two fields, `host` and
`freeCount`. -/
structure State where
  /-- The parameters (R6); no step writes them. -/
  cfg : Config
  /-- The MODEL's own: the host's coming moves, one per step boundary; empty: it presents nothing more. -/
  host : List HostMove
  /-- The MODEL's own: how many free values have been drawn. -/
  freeCount : Nat
  phase : Phase
  err : ErrorKind
  /-- `FAULT.OUT_OVERFLOW` (R33). -/
  faultOutOverflow : Bool
  /-- `FAULT.IN_OVERRUN` (R33). -/
  faultInOverrun : Bool
  refused : Bool
  sel : BitVec 3
  present : BitVec 3
  width : Word
  height : Word
  channels : Byte
  colorspace : Byte
  bound : Word
  pxLen : Word
  pos : Word
  prev : Pixel
  run : BitVec 6
  cache : Vector Pixel 64
  p : Word
  outLen : Word
  /-- `IN` (R50). -/
  inMem : Memory
  /-- `IN_LEN` (R6). -/
  inLen : Nat
  /-- `ALLOC_OK` (R6). -/
  allocOk : Bool
  /-- `OUT` (R52): absent, or the bytes written to it so far. -/
  out : Option Memory
deriving DecidableEq, Repr

/-- Why the machine stops. -/
inductive Fault where
  /-- A step, or a unit, in a state with a FAULT bit set (R112, R203: no further step). Safe: the machine stops. -/
  | afterFault
  /-- A step, or a unit, in a state with REFUSED = 1 (R112: no further step). Safe: the machine stops. -/
  | afterRefusal
  /-- A unit written while no output buffer exists (R52: OUT exists only after ALLOC). No run reaches it. Safe. -/
  | outAbsent
  /-- A pixel step whose SEL is not one-hot (R101, R106: no rule). No run reaches it. Safe. -/
  | noStrategy
  /-- Phase PIXELS with POS past PX_LEN (R105, R106: no rule). No run reaches it. Safe. -/
  | positionPastEnd
deriving DecidableEq, Repr

/-- Why an instruction has no meaning here. -/
inductive Refusal where
  /-- An instruction not modelled yet, by its table name; no arm raises it. Safe. -/
  | notModelled (mnemonic : String)
deriving DecidableEq, Repr

/-- The four-field zero pixel: transparent black (R28). -/
def zeroPixel : Pixel := { r := 0#8, g := 0#8, b := 0#8, a := 0#8 }

/-- Power-on (R39): PHASE = IDLE, FAULT = {}, REFUSED = 0, OUT absent (R40), the parameters at their defaults (R6). Every
other register is unspecified there and zero here (DESIGN CHOICE, unsafe: log entry 1). -/
def State.reset : State :=
  { cfg := defaultConfig, host := [], freeCount := 0, phase := .idle, err := .none,
    faultOutOverflow := false, faultInOverrun := false, refused := false,
    sel := 0#3, present := 0#3, width := 0#32, height := 0#32, channels := 0#8, colorspace := 0#8,
    bound := 0#32, pxLen := 0#32, pos := 0#32, prev := zeroPixel, run := 0#6,
    cache := Vector.replicate 64 zeroPixel, p := 0#32, outLen := 0#32,
    inMem := [], inLen := 0, allocOk := false, out := .none }

end Sys2Proof.Machine
end

