-- ==== Sys2Proof/Machine/Ops.lean ====
section
/-! DEFINITION. The named operations: the two buffers (spec/20_memory.md R50-R54), Emit (R54), ending a call with an error
(spec/60_exceptions.md R200-R202, R207), recording a fault (R203), refusing a command (R205), and writing one unit. -/
namespace Sys2Proof.Machine

/-! ### Buffers -/

/-- What an address that a buffer does not list reads as. IN: a zero byte, so that the cells are the non-zero bytes the
host supplied (log entry 8). OUT: no value (R52, A4: unspecified contents; log entry 9). -/
def unlisted : Space → Option Byte
  | .IN => some 0#8
  | .OUT => none

/-- Addresses strictly rising. -/
def Memory.rising : Memory → Bool
  | [] => true
  | [_] => true
  | c :: d :: m => decide (c.1 < d.1) && Memory.rising (d :: m)

/-- The canonical form: addresses strictly rising, no cell equal to what an unlisted address reads as. -/
def Memory.wf (sp : Space) (m : Memory) : Bool :=
  Memory.rising m && m.all fun c => decide (some c.2 ≠ unlisted sp)

/-- The byte at an address. -/
def Memory.read (sp : Space) : Memory → Nat → Option Byte
  | [], _ => unlisted sp
  | c :: m, addr => if c.1 = addr then some c.2 else Memory.read sp m addr

/-- List a byte at its address, in order. -/
def Memory.put : Memory → Nat → Byte → Memory
  | [], addr, v => [(addr, v)]
  | c :: m, addr, v =>
      if addr < c.1 then (addr, v) :: c :: m
      else if addr = c.1 then (addr, v) :: m
      else c :: Memory.put m addr v

/-- Unlist an address. -/
def Memory.erase : Memory → Nat → Memory
  | [], _ => []
  | c :: m, addr => if c.1 = addr then m else c :: Memory.erase m addr

/-- Store a byte; a byte equal to what an unlisted address reads as is not listed. -/
def Memory.write (sp : Space) (m : Memory) (addr : Nat) (v : Byte) : Memory :=
  if some v = unlisted sp then Memory.erase m addr else Memory.put m addr v

/-- Store bytes at rising addresses from `addr`. -/
def Memory.writeList (sp : Space) (m : Memory) (addr : Nat) : List Byte → Memory
  | [] => m
  | v :: vs => Memory.writeList sp (Memory.write sp m addr v) (addr + 1) vs

/-- The input buffer of packed bytes, the first at `addr`. -/
def Memory.ofBytes (sp : Space) (addr : Nat) : List Byte → Memory
  | [] => []
  | v :: vs =>
      if some v = unlisted sp then Memory.ofBytes sp (addr + 1) vs else (addr, v) :: Memory.ofBytes sp (addr + 1) vs

/-- `MemRead(IN, addr, 1)` (R51); `none` where `addr ≥ IN_LEN`. -/
def memRead (s : State) (addr : Word) : Option Byte :=
  if addr.toNat < s.inLen then Memory.read .IN s.inMem addr.toNat else none

/-- The byte of OUT at an offset, `none` where OUT is absent or nothing has been written. The block has no such read
(R50); claims and the host's view use it. -/
def outByte (s : State) (addr : Nat) : Option Byte :=
  match s.out with
  | none => none
  | some m => Memory.read .OUT m addr

/-! ### Predicates of the state -/

/-- FAULT ≠ {} (R33). -/
def faulted (s : State) : Bool := s.faultOutOverflow || s.faultInOverrun

/-- No step until the next START (R110). -/
def quiescent : Phase → Bool
  | .idle => true
  | .done => true
  | .fail => true
  | .validate => false
  | .alloc => false
  | .header => false
  | .pixels => false
  | .footer => false

/-! ### Recording faults, errors and refusals -/

/-- `fault OUT_OVERFLOW` (R203): the bit only. -/
def raiseOutOverflow (s : State) : State := { s with faultOutOverflow := true }

/-- `fault IN_OVERRUN` (R203): the bit only. -/
def raiseInOverrun (s : State) : State := { s with faultInOverrun := true }

/-- `raise <Error>`: the call ends with the error; nothing is saved and there is no handler (R207). -/
def failWith (e : ErrorKind) (s : State) : State := { s with err := e, phase := .fail }

/-- The numeric code of an error (R200). -/
def errorCode : ErrorKind → Nat
  | .none => 0
  | .invalidDescriptor => 1
  | .allocationFailure => 2

/-- A refused command: REFUSED <- 1, no other change (R205). -/
def refuse (s : State) : State := { s with refused := true }

/-! ### Emit -/

/-- `MemWrite(OUT, P, 1, v); P <- P + 1` (R53, R54). -/
def putByte (v : Byte) (s : State) : State :=
  { s with out := s.out.map fun m => Memory.write .OUT m s.p.toNat v, p := s.p + 1#32 }

/-- `Emit(v0, v1, ...)` (R54): each byte at the cursor; the first that finds P ≥ BOUND records OUT_OVERFLOW and the later
ones are not performed. -/
def emitAll : List Byte → State → State
  | [], s => s
  | v :: vs, s => if s.p.toNat < s.bound.toNat then emitAll vs (putByte v s) else raiseOutOverflow s

/-- The bytes fit between P and BOUND. -/
def fits (s : State) (n : Nat) : Bool := decide (s.p.toNat + n ≤ s.bound.toNat)

/-- Write one unit: its bytes, then `after` unless an Emit faulted (R203: the rest of the step is not performed). A state
with a FAULT bit or REFUSED set takes no further step (R112); OUT must exist (R52). -/
def writeUnit (bytes : List Byte) (after : State → State) (s : State) : Host.Outcome State Fault Refusal :=
  if faulted s then .fault .afterFault
  else if s.refused then .fault .afterRefusal
  else if s.out.isNone then .fault .outAbsent
  else
    let t := emitAll bytes s
    .next (if faulted t then t else after t)

end Sys2Proof.Machine
end

