-- ==== Sys2Proof/Machine/Operands.lean ====
section
/-! DEFINITION. The operands of a pixel step: the fetched pixel (spec/20_memory.md R55), its deltas
(spec/44_delta.md R160, R165), its cache bucket (spec/45_cache.md R181), the cache slots (spec/10_state.md R28), and the
literal's form (spec/43_run.md R154). The byte forms of the fields are in Sys2Proof/Decode.lean. -/
namespace Sys2Proof.Machine

/-- The three one-hot settings of SEL (R22). -/
def selRun : BitVec 3 := 0b001#3

def selDelta : BitVec 3 := 0b010#3

def selCache : BitVec 3 := 0b100#3

/-- `FetchPixel(addr)` (R55): r, g, b, and a where CHANNELS = 4, else a = 255; `none` where a read is past IN_LEN. -/
def fetchPixel (s : State) (addr : Word) : Option Pixel :=
  match memRead s addr, memRead s (addr + 1#32), memRead s (addr + 2#32) with
  | some r, some g, some b =>
      if s.channels = 4#8 then
        match memRead s (addr + 3#32) with
        | some a => some { r := r, g := g, b := b, a := a }
        | none => none
      else some { r := r, g := g, b := b, a := 255#8 }
  | _, _, _ => none

/-- `wrap_s8(x - y)` (R8, R165). -/
def wrapDelta (x y : Byte) : Int := (x - y).toInt

/-- The deltas of R160; `drg` and `dbg` are exact differences (R165). -/
structure Deltas where
  dr  : Int
  dg  : Int
  db  : Int
  drg : Int
  dbg : Int
deriving DecidableEq, Repr

def deltasOf (px prev : Pixel) : Deltas :=
  { dr := wrapDelta px.r prev.r, dg := wrapDelta px.g prev.g, db := wrapDelta px.b prev.b,
    drg := wrapDelta px.r prev.r - wrapDelta px.g prev.g, dbg := wrapDelta px.b prev.b - wrapDelta px.g prev.g }

/-- The published mix (R181), computed exactly, modulo 64. -/
def publishedHash (px : Pixel) : Bucket :=
  BitVec.ofNat 6 ((3 * px.r.toNat + 5 * px.g.toNat + 7 * px.b.toNat + 11 * px.a.toNat) % 64)

/-- `HASH(px)` (R181), whichever mix the parameter names. -/
def hashOf (h : HashMix) (px : Pixel) : Bucket :=
  match h with
  | .published => publishedHash px
  | .other k => Config.hashOther k px

/-- `CACHE[b]` (R28). -/
def cacheRead (s : State) (b : Bucket) : Pixel := s.cache[b.toNat]

/-- `CACHE[b] <- px` (R28). -/
def cacheWrite (b : Bucket) (px : Pixel) (s : State) : State := { s with cache := s.cache.set b.toNat px }

/-- OP_RGBA carries no alpha byte: RUN, CHANNELS ≠ 4 and RUN_LIT3 = 3 (R154). -/
def shortLiteral (s : State) : Bool :=
  decide (s.channels ≠ 4#8) && decide (s.sel = selRun) && decide (s.cfg.runLit3 = .three)

end Sys2Proof.Machine
end

