-- ==== Sys2Proof/Machine/Flags.lean ====
section
/-! DEFINITION. The comparisons of spec/10_state.md R36. The block has no flags register: each is a combinational value,
computed and consumed inside one step. -/
namespace Sys2Proof.Machine

/-- `px.a != PREV.a` (R160). -/
def alphaChanged (px prev : Pixel) : Bool := decide (px.a ≠ prev.a)

/-- `v in [lo, hi]`. -/
def inRange (lo hi v : Int) : Bool := decide (lo ≤ v) && decide (v ≤ hi)

/-- OP_DIFF can encode the deltas (R160). -/
def diffFits (d : Deltas) : Bool := inRange (-2) 1 d.dr && inRange (-2) 1 d.dg && inRange (-2) 1 d.db

/-- OP_LUMA can encode the deltas (R160). -/
def lumaFits (d : Deltas) : Bool := inRange (-8) 7 d.drg && inRange (-32) 31 d.dg && inRange (-8) 7 d.dbg

/-- `POS == PX_LEN - CHANNELS` (R106): the last pixel of the image. -/
def lastPixel (s : State) : Bool := decide (s.pos = s.pxLen - s.channels.setWidth 32)

/-- `RUN == RUN_MAX`, 62 (R150). -/
def runFull (n : BitVec 6) : Bool := decide (n = 62#6)

/-- The slot the pixel hashes to holds it (R180). -/
def cacheHit (s : State) (px : Pixel) : Bool := decide (cacheRead s (hashOf s.cfg.hash px) = px)

/-- The overflow guard `HEIGHT >= MAX_PIXELS // WIDTH`, unsigned (R122). -/
def guardRejects (s : State) : Bool := decide ((s.cfg.maxPixels / s.width).toNat ≤ s.height.toNat)

/-- The predicate `Invalid` (R120), its tests in order. -/
def invalid (s : State) : Bool :=
  !(s.present.getLsbD 0) || !(s.present.getLsbD 1) || !(s.present.getLsbD 2) ||
  decide (s.width = 0#32) || decide (s.height = 0#32) ||
  (decide (s.channels ≠ 3#8) && decide (s.channels ≠ 4#8)) ||
  decide (1 < s.colorspace.toNat) || guardRejects s

end Sys2Proof.Machine
end

