-- ==== Sys2Proof/Machine/Cache.lean ====
section
/-! DEFINITION. The CACHE strategy (spec/45_cache.md): OP_INDEX, and which unit a pixel selects. -/
namespace Sys2Proof.Machine

/-- `EmitIndex(bucket)` (R183). -/
def execIndex (bucket : Bucket) (s : State) : Host.Outcome State Fault Refusal :=
  writeUnit (indexBytes s.cfg.tags bucket) id s

/-- CacheStep (R180): a hit writes OP_INDEX; a miss overwrites the slot (R182), then writes OP_RGBA. -/
def cacheSelect (px : Pixel) (s : State) : State × List Instr :=
  if cacheHit s px then (s, [.index (hashOf s.cfg.hash px)])
  else (cacheWrite (hashOf s.cfg.hash px) px s, [.rgba px.r px.g px.b px.a])

end Sys2Proof.Machine
end

