-- ==== Sys2Proof/Machine/Delta.lean ====
section
/-! DEFINITION. The DELTA strategy (spec/44_delta.md): OP_DIFF, OP_LUMA, OP_RGB, and which unit a pixel selects. -/
namespace Sys2Proof.Machine

/-- `EmitDiff(dr, dg, db)` (R162). -/
def execDiff (dr dg db : Int) (s : State) : Host.Outcome State Fault Refusal :=
  writeUnit (diffBytes s.cfg.tags dr dg db) id s

/-- `EmitLuma(dg, dr_g, db_g)` (R163). -/
def execLuma (dg drg dbg : Int) (s : State) : Host.Outcome State Fault Refusal :=
  writeUnit (lumaBytes s.cfg.tags dg drg dbg) id s

/-- `EmitRGB(px)` (R164). -/
def execRgb (r g b : Byte) (s : State) : Host.Outcome State Fault Refusal :=
  writeUnit (rgbBytes s.cfg.tags r g b) id s

/-- DeltaStep's decision, in its fixed order (R160): one unit per pixel. -/
def deltaUnit (px prev : Pixel) : Instr :=
  let d := deltasOf px prev
  if alphaChanged px prev then .rgba px.r px.g px.b px.a
  else if diffFits d then .diff d.dr d.dg d.db
  else if lumaFits d then .luma d.dg d.drg d.dbg
  else .rgb px.r px.g px.b

/-- DeltaStep (R160) changes nothing before its unit is written. -/
def deltaSelect (px : Pixel) (s : State) : State × List Instr := (s, [deltaUnit px s.prev])

end Sys2Proof.Machine
end

