-- ==== Sys2Proof/Machine/Framing.lean ====
section
/-! DEFINITION. The header and the end marker (spec/42_framing.md). -/
namespace Sys2Proof.Machine

/-- `WriteHeader` (R140): the magic and the descriptor, fourteen bytes. -/
def execHeader (width height : Word) (channels colorspace : Byte) (s : State) : Host.Outcome State Fault Refusal :=
  writeUnit (headerBytes s.cfg.magic width height channels colorspace) id s

/-- `WriteFooter` (R141): eight bytes. -/
def execEndMarker (s : State) : Host.Outcome State Fault Refusal :=
  writeUnit endBytes id s

end Sys2Proof.Machine
end

