-- ==== Sys2Proof/Machine/Run.lean ====
section
/-! DEFINITION. The RUN strategy (spec/43_run.md): OP_RUN, OP_RGBA (also the literal of the other strategies), and which
units a pixel selects. -/
namespace Sys2Proof.Machine

/-- RUN <- 0 after a flush (R152). -/
def clearRun (s : State) : State := { s with run := 0#6 }

/-- `EmitRun()` for a run of `n` (R152): one byte, then RUN <- 0. -/
def execRun (n : BitVec 6) (s : State) : Host.Outcome State Fault Refusal :=
  writeUnit (runBytes s.cfg.tags n) clearRun s

/-- `EmitRGBA(px)` (R154): five bytes, or four in its short form. -/
def execRgba (r g b a : Byte) (s : State) : Host.Outcome State Fault Refusal :=
  writeUnit (rgbaBytes s.cfg.tags (shortLiteral s) r g b a) id s

/-- RUN <- RUN + 1 (R150). -/
def bumpRun (s : State) : State := { s with run := s.run + 1#6 }

/-- OP_RUN for the pending run (R152). -/
def flushUnits (s : State) : List Instr := [.run s.run]

/-- RunStep: the equal branch (R150) counts, and flushes at 62 or at the last pixel; the different branch (R151) flushes a
pending run, then writes the literal. -/
def runSelect (px : Pixel) (last : Bool) (s : State) : State × List Instr :=
  if px = s.prev then
    let t := bumpRun s
    (t, if runFull t.run || last then flushUnits t else [])
  else
    (s, (if s.run = 0#6 then [] else flushUnits s) ++ [.rgba px.r px.g px.b px.a])

end Sys2Proof.Machine
end

