-- ==== Sys2Proof/Machine/Start.lean ====
section
/-! DEFINITION. The command START (spec/40_sequencer.md R100, R101, R110; spec/10_state.md R38). -/
namespace Sys2Proof.Machine

/-- START's precondition (R100): a quiescent phase, FAULT = {}, REFUSED = 0. -/
def accepts (s : State) : Bool := quiescent s.phase && !(faulted s) && !s.refused

/-- `sel` is one-hot (R101). -/
def legalSel (sel : BitVec 3) : Bool := decide (sel = selRun) || decide (sel = selDelta) || decide (sel = selCache)

/-- PRESENT[2:0] (R100): descriptor, length receptacle, input buffer. -/
def presenceOf (cmd : StartCmd) : BitVec 3 :=
  BitVec.ofBool cmd.descPresent ++ BitVec.ofBool cmd.lenPresent ++ BitVec.ofBool cmd.inPresent

/-- The seed of PREV: opaque black (R38). -/
def seedPixel : Pixel := { r := 0#8, g := 0#8, b := 0#8, a := 255#8 }

/-- The operands of an accepted START (R100). With no descriptor its four registers are unspecified (R23): free values
(log entry 6). -/
def latchCommand (cmd : StartCmd) (s : State) : State :=
  { s with
    sel := cmd.sel
    present := presenceOf cmd
    width := if cmd.descPresent then cmd.width else Config.freeWord s.freeCount
    height := if cmd.descPresent then cmd.height else Config.freeWord (s.freeCount + 1)
    channels := if cmd.descPresent then cmd.channels else Config.freeByte s.freeCount
    colorspace := if cmd.descPresent then cmd.colorspace else Config.freeByte (s.freeCount + 1)
    inMem := Memory.ofBytes .IN 0 cmd.buffer
    inLen := cmd.buffer.length
    allocOk := cmd.allocOk }

/-- What START sets whatever its operands (R38). BOUND, PX_LEN and OUT_LEN are unspecified: free values (log entry 5). OUT
is absent until ALLOC (R40). -/
def seedCall (s : State) : State :=
  { s with
    prev := seedPixel
    run := 0#6
    cache := Vector.replicate 64 zeroPixel
    p := 0#32
    pos := 0#32
    err := .none
    phase := .validate
    bound := Config.freeWord (s.freeCount + 2)
    pxLen := Config.freeWord (s.freeCount + 3)
    outLen := Config.freeWord (s.freeCount + 4)
    freeCount := s.freeCount + 5
    out := none }

/-- START presented to the block: a fresh call (R100), or a refusal (R101 BadSelector, R110 StartOutOfTurn). -/
def startCommand (cmd : StartCmd) (s : State) : State :=
  if accepts s && legalSel cmd.sel then seedCall (latchCommand cmd s) else refuse s

end Sys2Proof.Machine
end

