-- ==== Sys2Proof/Machine/Sequencer.lean ====
section
/-! DEFINITION. The phase steps (spec/40_sequencer.md R102-R110). The block selects its units itself: a phase step says
which units it writes, and each is run by `exec`. -/
namespace Sys2Proof.Machine

/-- Run units in order; after one that faulted the rest are not performed (R203). -/
def runUnits : List Instr → State → Host.Outcome State Fault Refusal
  | [], s => .next s
  | i :: is, s =>
      match exec i s with
      | .next t => if faulted t then .next t else runUnits is t
      | .fault f => .fault f
      | .refused r => .refused r

/-- Run units, then the rest of the step unless one faulted (R203). -/
def runUnitsThen (units : List Instr) (rest : State → State) (s : State) : Host.Outcome State Fault Refusal :=
  match runUnits units s with
  | .next t => .next (if faulted t then t else rest t)
  | .fault f => .fault f
  | .refused r => .refused r

/-- PHASE <- ph (R31). -/
def enterPhase (ph : Phase) (s : State) : State := { s with phase := ph }

/-- VALIDATE step (R102, R121). -/
def validateStep (s : State) : State :=
  if invalid s then failWith .invalidDescriptor s else enterPhase .alloc s

/-- PX_LEN and BOUND, in u32 arithmetic (R124). -/
def computeSizes (s : State) : State :=
  { s with
    pxLen := s.width * s.height * s.channels.setWidth 32
    bound := s.width * s.height * (s.channels.setWidth 32 + 1#32) + 14#32 + 8#32 }

/-- A fresh OUT of BOUND bytes, their contents unspecified (R125). -/
def allocateOut (s : State) : State := { s with out := some [] }

/-- ALLOC step (R103, R125). -/
def allocStep (s : State) : State :=
  let t := computeSizes s
  if t.allocOk then enterPhase .header (allocateOut t) else failWith .allocationFailure t

/-- The unit of the HEADER step (R104, R140). -/
def headerUnit (s : State) : Instr := .header s.width s.height s.channels s.colorspace

/-- HEADER step (R104). -/
def headerStep (s : State) : Host.Outcome State Fault Refusal :=
  runUnitsThen [headerUnit s] (enterPhase .pixels) s

/-- The pixel step's selection (R106): the state the strategy's own writes leave, and the units it writes; `none` where
SEL is not one-hot. -/
def selectUnits (px : Pixel) (s : State) : Option (State × List Instr) :=
  if s.sel = selRun then some (runSelect px (lastPixel s) s)
  else if s.sel = selDelta then some (deltaSelect px s)
  else if s.sel = selCache then some (cacheSelect px s)
  else none

/-- The end of every pixel step: PREV <- px (R153, R166, R184), POS <- POS + CHANNELS (R107). -/
def retire (px : Pixel) (s : State) : State := { s with prev := px, pos := s.pos + s.channels.setWidth 32 }

/-- PIXELS step, one pixel (R106). A failed fetch records IN_OVERRUN and nothing else (R51, R203). -/
def pixelStep (s : State) : Host.Outcome State Fault Refusal :=
  match fetchPixel s s.pos with
  | none => .next (raiseInOverrun s)
  | some px =>
      match selectUnits px s with
      | none => .fault .noStrategy
      | some (t, units) => runUnitsThen units (retire px) t

/-- PIXELS step: the end test (R105) or one pixel (R106). -/
def pixelsStep (s : State) : Host.Outcome State Fault Refusal :=
  if s.pos = s.pxLen then .next (enterPhase .footer s)
  else if s.pos.toNat < s.pxLen.toNat then pixelStep s
  else .fault .positionPastEnd

/-- DONE: OUT_LEN <- P (R109). -/
def finishCall (s : State) : State := { s with outLen := s.p, phase := .done }

/-- FOOTER step (R108). -/
def footerStep (s : State) : Host.Outcome State Fault Refusal :=
  runUnitsThen [.endMarker] finishCall s

/-- One step of the block with no command presented. A state with a FAULT bit or REFUSED set has none (R112); a quiescent
phase waits for the next START (R110; log entry 12). -/
def advance (s : State) : Host.Outcome State Fault Refusal :=
  if faulted s then .fault .afterFault
  else if s.refused then .fault .afterRefusal
  else match s.phase with
    | .idle => .next s
    | .done => .next s
    | .fail => .next s
    | .validate => .next (validateStep s)
    | .alloc => .next (allocStep s)
    | .header => headerStep s
    | .pixels => pixelsStep s
    | .footer => footerStep s

/-- One step boundary: the host's next move, then the block's step. A START takes the whole step (R100, R113). -/
def boundary (s : State) : Host.Outcome State Fault Refusal :=
  match s.host with
  | [] => advance s
  | .quiet :: moves => advance { s with host := moves }
  | .start cmd :: moves => .next (startCommand cmd { s with host := moves })

end Sys2Proof.Machine
end

