-- ==== Sys2Proof/Machine/Placement.lean ====
section
/-! DEFINITION. States whose very next step selects and writes a given unit, for `State.withFetchWord` (log entry 16).
The block has no instruction memory (spec/20_memory.md R50): a unit is chosen by the phase, the strategy, the pixel in IN
and the registers the strategy compares it with. -/
namespace Sys2Proof.Machine

/-- The four bytes of a pixel in IN (R55). -/
def pixelBytes (px : Pixel) : List Byte := [px.r, px.g, px.b, px.a]

/-- Phase PIXELS at the only pixel `px` of a 4-channel image, strategy `sel`, the header written, 27 bytes of room (R124),
no command coming, no mark set, the default parameters. -/
def placePixel (sel : BitVec 3) (px : Pixel) (s : State) : State :=
  { s with
    cfg := defaultConfig, host := [], faultOutOverflow := false, faultInOverrun := false, refused := false,
    phase := .pixels, sel := sel, channels := 4#8, bound := 27#32, pxLen := 4#32, pos := 0#32, p := 14#32,
    inMem := Memory.ofBytes .IN 0 (pixelBytes px), inLen := 4, out := some [] }

/-- Phase `ph` at cursor `p`, for the two records. -/
def placeRecord (ph : Phase) (p : Word) (s : State) : State :=
  { s with
    cfg := defaultConfig, host := [], faultOutOverflow := false, faultInOverrun := false, refused := false,
    phase := ph, bound := 27#32, p := p, out := some [] }

/-- A pixel the published mix sends to a bucket: 3 * 43 = 129 is 1 modulo 64. -/
def pixelOfBucket (b : Bucket) : Pixel := { r := 43#8 * b.setWidth 8, g := 0#8, b := 0#8, a := 0#8 }

/-- The previous pixel moved by three deltas, modulo 256 in each channel. -/
def shiftPixel (prev : Pixel) (dr dg db : Int) : Pixel :=
  { r := prev.r + BitVec.ofInt 8 dr, g := prev.g + BitVec.ofInt 8 dg, b := prev.b + BitVec.ofInt 8 db, a := prev.a }

/-- Place a unit. -/
def placeUnit (i : Instr) (s : State) : State :=
  match i with
  | .index b => cacheWrite b (pixelOfBucket b) (placePixel selCache (pixelOfBucket b) s)
  | .diff dr dg db => placePixel selDelta (shiftPixel s.prev dr dg db) s
  | .luma dg drg dbg => placePixel selDelta (shiftPixel s.prev (dg + drg) dg (dg + dbg)) s
  | .run n => { placePixel selRun s.prev s with run := n - 1#6 }
  | .rgb r g b =>
      { placePixel selDelta { r := r, g := g, b := b, a := s.prev.a } s with
        prev := { r := r + 128#8, g := g, b := b, a := s.prev.a } }
  | .rgba r g b a =>
      { placePixel selDelta { r := r, g := g, b := b, a := a } s with
        prev := { r := s.prev.r, g := s.prev.g, b := s.prev.b, a := a + 1#8 } }
  | .header w h c cs =>
      { placeRecord .header 0#32 s with width := w, height := h, channels := c, colorspace := cs }
  | .endMarker => placeRecord .footer 14#32 s

/-- Place the unit of a table word; a word that is no unit leaves the state as it is. -/
def placeTableWord (s : State) (nbits w : Nat) : State :=
  match decodeTableWord nbits w with
  | some i => placeUnit i s
  | none => s

end Sys2Proof.Machine
end

