-- ==== Sys2Proof/Machine/Step.lean ====
section
/-! DEFINITION. One step of the machine, and the placement of a table word for its very next step. -/
namespace Sys2Proof.Machine

/-- One step (spec/40_sequencer.md): the host's move, then the block's phase step. -/
def step (s : State) : Host.Outcome State Fault Refusal := boundary s

/-- `s` with the unit of a table word placed where the next step selects it (log entry 16). -/
def State.withFetchWord (s : State) (nbits w : Nat) : State := placeTableWord s nbits w

end Sys2Proof.Machine
end

