-- ==== Sys2Proof/Machine/HostView.lean ====
section
/-! DEFINITION. What the host gets back (spec/40_sequencer.md R109, R112, R115; spec/20_memory.md R61). -/
namespace Sys2Proof.Machine

/-- A call has ended (R112). -/
def ended (s : State) : Bool := decide (s.phase = .done) || decide (s.phase = .fail)

/-- An ended state that is final, a good end (R112). -/
def goodEnd (s : State) : Bool := ended s && !(faulted s) && !s.refused

/-- The result: OUT[0 .. OUT_LEN-1] in DONE, absent in every other phase (R61, R109). -/
def result (s : State) : Option (List Byte) :=
  if s.phase = .done then some ((List.range s.outLen.toNat).filterMap (outByte s)) else none

/-- ERR as the model's observation sees it, in FAIL only; the source's caller cannot tell the two kinds apart (R115). -/
def observedError (s : State) : Option ErrorKind := if s.phase = .fail then some s.err else none

end Sys2Proof.Machine
end

