-- ==== Sys2Proof/WellFormed.lean ====
section
/-! DEFINITION. Which units are well formed (spec/30_encoding.md R73, R76; spec/10_state.md R23) and which parameter
settings are (spec/00_scope.md R6; spec/30_encoding.md R72, R75). -/
namespace Sys2Proof

/-- Every operand lies in the range R73 gives it (DIFF [-2, 1]; LUMA [-32, 31] and [-8, 7]; RUN [1, 62]); a header holds
legal descriptor values (R23). -/
def Instr.wf : Instr → Bool
  | .index _ => true
  | .diff dr dg db =>
      decide (-2 ≤ dr) && decide (dr ≤ 1) && decide (-2 ≤ dg) && decide (dg ≤ 1) && decide (-2 ≤ db) && decide (db ≤ 1)
  | .luma dg drg dbg =>
      decide (-32 ≤ dg) && decide (dg ≤ 31) && decide (-8 ≤ drg) && decide (drg ≤ 7) && decide (-8 ≤ dbg) && decide (dbg ≤ 7)
  | .run n => decide (1 ≤ n.toNat) && decide (n.toNat ≤ 62)
  | .rgb _ _ _ => true
  | .rgba _ _ _ _ => true
  | .header w h c s => decide (w ≠ 0) && decide (h ≠ 0) && (decide (c = 3) || decide (c = 4)) && decide (s.toNat ≤ 1)
  | .endMarker => true

/-- The tags give every first byte one meaning (R72, R75, R77): the four 2-bit tags are distinct, and the two 8-bit tags
are the two bytes the run tag leaves over, payloads 62 and 63 (R76). -/
def Tags.wf (t : Tags) : Bool :=
  decide (t.index ≠ t.diff) && decide (t.index ≠ t.luma) && decide (t.index ≠ t.run) && decide (t.diff ≠ t.luma) &&
  decide (t.diff ≠ t.run) && decide (t.luma ≠ t.run) && decide (t.rgb ≠ t.rgba) &&
  decide (t.rgb.extractLsb' 6 2 = t.run) && decide (62 ≤ (t.rgb.extractLsb' 0 6).toNat) &&
  decide (t.rgba.extractLsb' 6 2 = t.run) && decide (62 ≤ (t.rgba.extractLsb' 0 6).toNat)

/-- The constraint of R6 on `MAX_PIXELS` (R123 says why), and well-formed tags. -/
def Config.wf (c : Config) : Bool :=
  decide (1 ≤ c.maxPixels.toNat) && decide (c.maxPixels.toNat ≤ 858993455) && c.tags.wf

end Sys2Proof
end

