-- ==== Sys2Proof/Safety.lean ====
section
/-! DEFINITION. The terms claims use: what a step boundary without a START is, when a unit may be written and what it wrote,
and the invariants of the machine. -/
namespace Sys2Proof.Machine

/-! ### Step boundaries and units -/

/-- The host presents no START at this step boundary; `moves` are its moves after it. -/
def Silent (s : State) (moves : List HostMove) : Prop :=
  s.host = .quiet :: moves ∨ (s.host = [] ∧ moves = [])

/-- FAULT = {} and REFUSED = 0. -/
def Unmarked (s : State) : Prop := faulted s = false ∧ s.refused = false

/-- A unit may be written: no mark, and OUT holds `m` (R52, R112). -/
def Ready (s : State) (m : Memory) : Prop := faulted s = false ∧ s.refused = false ∧ s.out = some m

/-- From `s` to `t` exactly `bytes` were written, at the cursor and upwards, and the cursor moved past them. -/
def Wrote (s t : State) (bytes : List Byte) : Prop :=
  (∀ k (h : k < bytes.length), outByte t (s.p.toNat + k) = some bytes[k]) ∧
  (∀ a, a < s.p.toNat ∨ s.p.toNat + bytes.length ≤ a → outByte t a = outByte s a) ∧
  t.p.toNat = s.p.toNat + bytes.length

/-- What unit `i` does in `s` if its bytes are `bytes` and `after` follows a write without a fault: they fit and stand in
OUT; or they do not, those below BOUND stand in OUT, OUT_OVERFLOW is recorded, and `after` does not follow (R54, R203). In
both cases nothing else changes. -/
def UnitMeaning (i : Instr) (s : State) (bytes : List Byte) (after : State → State) : Prop :=
  (s.p.toNat + bytes.length ≤ s.bound.toNat →
    ∃ t, exec i s = .next t ∧ Wrote s t bytes ∧ t = after { s with out := t.out, p := t.p }) ∧
  (s.bound.toNat < s.p.toNat + bytes.length →
    ∃ t, exec i s = .next t ∧ Wrote s t (bytes.take (s.bound.toNat - s.p.toNat)) ∧
      t = { s with out := t.out, p := t.p, faultOutOverflow := true })

/-- A byte from its value. -/
def byteOf (v : Int) : Byte := BitVec.ofInt 8 v

/-- The bytes DELTA writes for a pixel, in the arithmetic of R160-R164: alpha change, then DIFF, then LUMA, then RGB. -/
def deltaBytes (t : Tags) (px prev : Pixel) : List Byte :=
  let dr := (px.r - prev.r).toInt
  let dg := (px.g - prev.g).toInt
  let db := (px.b - prev.b).toInt
  if px.a ≠ prev.a then [t.rgba, px.r, px.g, px.b, px.a]
  else if (-2 ≤ dr ∧ dr ≤ 1) ∧ (-2 ≤ dg ∧ dg ≤ 1) ∧ (-2 ≤ db ∧ db ≤ 1) then
    [byteOf (64 * t.diff.toNat + 16 * (dr + 2) + 4 * (dg + 2) + (db + 2))]
  else if (-8 ≤ dr - dg ∧ dr - dg ≤ 7) ∧ (-32 ≤ dg ∧ dg ≤ 31) ∧ (-8 ≤ db - dg ∧ db - dg ≤ 7) then
    [byteOf (64 * t.luma.toNat + (dg + 32)), byteOf (16 * (dr - dg + 8) + (db - dg + 8))]
  else [t.rgb, px.r, px.g, px.b]

/-- The literal RUN writes (R154): no alpha byte with CHANNELS other than 4 and RUN_LIT3 = 3. -/
def runLiteral (s : State) (px : Pixel) : List Byte :=
  if s.channels ≠ 4#8 ∧ s.cfg.runLit3 = .three then [s.cfg.tags.rgba, px.r, px.g, px.b]
  else [s.cfg.tags.rgba, px.r, px.g, px.b, px.a]

/-! ### Phases -/

/-- The phases in which OUT exists (R52). -/
def hasOut : Phase → Bool
  | .idle => false
  | .validate => false
  | .alloc => false
  | .header => true
  | .pixels => true
  | .footer => true
  | .done => true
  | .fail => false

/-- The phases after a passed validation (R102). -/
def validated : Phase → Bool
  | .idle => false
  | .validate => false
  | .alloc => true
  | .header => true
  | .pixels => true
  | .footer => true
  | .done => true
  | .fail => false

/-- The phases before the first byte is written. -/
def beforeBytes : Phase → Bool
  | .idle => false
  | .validate => true
  | .alloc => true
  | .header => true
  | .pixels => false
  | .footer => false
  | .done => false
  | .fail => false

/-- The phases after the header. -/
def afterHeader : Phase → Bool
  | .idle => false
  | .validate => false
  | .alloc => false
  | .header => false
  | .pixels => true
  | .footer => true
  | .done => true
  | .fail => false

/-- The phases after the last pixel. -/
def afterPixels : Phase → Bool
  | .idle => false
  | .validate => false
  | .alloc => false
  | .header => false
  | .pixels => false
  | .footer => true
  | .done => true
  | .fail => false

/-! ### Invariants -/

/-- Both buffers are in their canonical form. -/
def BuffersCanonical (s : State) : Prop :=
  Memory.wf .IN s.inMem = true ∧ ∀ m, s.out = some m → Memory.wf .OUT m = true

/-- The number of pixels of the image. -/
def pixelCount (s : State) : Nat := s.width.toNat * s.height.toNat

/-- The invariant of the block: each clause is a rule of the spec about every state a run reaches. -/
structure Inv (s : State) : Prop where
  /-- The parameters meet their constraints (R6, R72). -/
  cfg : s.cfg.wf = true
  /-- OUT exists in the phases after ALLOC and in no other (R52). -/
  outPresent : s.out.isSome = hasOut s.phase
  /-- OUT holds bytes at exactly the offsets below P (R60). -/
  outCells : ∀ m, s.out = some m → m.map Prod.fst = List.range s.p.toNat
  /-- SEL is one-hot once a call has begun (R22). -/
  selLegal : s.phase ≠ .idle → legalSel s.sel = true
  /-- ERR is NONE in every phase except FAIL (R32). -/
  errInFail : s.err ≠ .none ↔ s.phase = .fail
  /-- RUN is at most 62, and below it outside a faulted flush (R27, R150). -/
  runRange : s.run.toNat ≤ 62 ∧ (s.faultOutOverflow = false → s.run.toNat ≤ 61)
  /-- The descriptor passed validation (R102). -/
  descriptor : validated s.phase = true → invalid s = false
  /-- PX_LEN and BOUND are exact, with no overflow (R24, R123, R124). -/
  sizes : hasOut s.phase = true →
    s.pxLen.toNat = pixelCount s * s.channels.toNat ∧ s.bound.toNat = pixelCount s * (s.channels.toNat + 1) + 22
  /-- Nothing is written and nothing is pending before the header, and PREV is the seed (R38). -/
  fresh : beforeBytes s.phase = true → s.p = 0#32 ∧ s.pos = 0#32 ∧ s.run = 0#6 ∧ s.prev = seedPixel
  /-- P stays within BOUND (R54). -/
  cursor : hasOut s.phase = true → s.p.toNat ≤ s.bound.toNat
  /-- POS is a multiple of CHANNELS and at most PX_LEN (R25). -/
  scan : afterHeader s.phase = true → s.pos.toNat ≤ s.pxLen.toNat ∧ s.channels.toNat ∣ s.pos.toNat
  /-- After the last pixel POS = PX_LEN (R105). -/
  scanEnd : afterPixels s.phase = true → s.pos = s.pxLen
  /-- Only the RUN strategy leaves a run pending (R27, R156). -/
  runOnlyInRun : s.phase ≠ .idle → s.sel ≠ selRun → s.run = 0#6
  /-- No run is pending once the last pixel is classified (R155). -/
  runFlushed : afterHeader s.phase = true → s.pos = s.pxLen → s.run = 0#6
  /-- Three channels: PREV's alpha is 255 (R161). -/
  alphaFixed : validated s.phase = true → s.channels = 3#8 → s.prev.a = 255#8
  /-- OUT_OVERFLOW is recorded in PIXELS or FOOTER only, with P at BOUND (R203). -/
  overflowAt : s.faultOutOverflow = true → (s.phase = .pixels ∨ s.phase = .footer) ∧ s.p = s.bound
  /-- IN_OVERRUN is recorded in PIXELS only, and only for a buffer shorter than PX_LEN (R203). -/
  overrunAt : s.faultInOverrun = true → s.phase = .pixels ∧ s.inLen < s.pxLen.toNat
  /-- After the header P ≥ 14; once a pixel is classified a further byte is written or a run pending (R70). -/
  headerWritten : afterHeader s.phase = true →
    14 ≤ s.p.toNat ∧ (s.pos ≠ 0#32 → s.run = 0#6 → 15 ≤ s.p.toNat)
  /-- In DONE OUT_LEN = P (R30), at least 23 (R127). -/
  result : s.phase = .done → s.outLen = s.p ∧ 23 ≤ s.p.toNat

/-- The rows of R126 whose worst case fits in BOUND. -/
def fittingRow (s : State) : Bool :=
  decide (s.channels = 4#8) || decide (s.sel = selDelta) || (decide (s.sel = selRun) && decide (s.cfg.runLit3 = .three))

/-- On those rows (R126): no overflow is recorded, and in PIXELS the bytes written, with one more for a pending run, stay
within 14 plus CHANNELS + 1 per classified pixel; in FOOTER the end marker still fits. -/
structure Capacity (s : State) : Prop where
  noOverflow : fittingRow s = true → s.faultOutOverflow = false
  inPixels : s.phase = .pixels → fittingRow s = true →
    s.p.toNat + (if s.run = 0#6 then 0 else 1) ≤
      14 + (s.channels.toNat + 1) * (s.pos.toNat / s.channels.toNat)
  inFooter : s.phase = .footer → fittingRow s = true → s.p.toNat + 8 ≤ s.bound.toNat

/-- The stream's frame (R70): after the header step OUT begins with the header of the descriptor registers, and in DONE the
last eight bytes below OUT_LEN are the end marker. -/
structure StreamFramed (s : State) : Prop where
  header : afterHeader s.phase = true → ∀ k, k < 14 →
    outByte s k = (headerBytes s.cfg.magic s.width s.height s.channels s.colorspace)[k]?
  marker : s.phase = .done → ∀ k, k < 8 → outByte s (s.outLen.toNat - 8 + k) = endBytes[k]?

end Sys2Proof.Machine
end

