-- ==== Sys2Proof/Certificates/Slice0/Obligations.lean ====
section
/-! DEFINITION. The statements for the provers. Each docstring names the rule of spec/ it formalises. -/

open Sys2Proof Sys2Proof.Machine

/-! ### The units -/

/-- R183, R73: INDEX writes one byte, the tag over the bucket; the cache is not written. -/
def Obligations.IndexMeaning : Prop :=
  ∀ (b : Bucket) (s : State) (m : Memory), Ready s m →
    UnitMeaning (.index b) s [byteOf (64 * s.cfg.tags.index.toNat + b.toNat)] id

/-- R162, R73: DIFF writes one byte, the tag over dr + 2, dg + 2, db + 2. -/
def Obligations.DiffMeaning : Prop :=
  ∀ (dr dg db : Int) (s : State) (m : Memory), Ready s m → (Instr.diff dr dg db).wf = true →
    UnitMeaning (.diff dr dg db) s
      [byteOf (64 * s.cfg.tags.diff.toNat + 16 * (dr + 2) + 4 * (dg + 2) + (db + 2))] id

/-- R163, R73: LUMA writes two bytes, the tag over dg + 32, then dr_g + 8 over db_g + 8. -/
def Obligations.LumaMeaning : Prop :=
  ∀ (dg drg dbg : Int) (s : State) (m : Memory), Ready s m → (Instr.luma dg drg dbg).wf = true →
    UnitMeaning (.luma dg drg dbg) s
      [byteOf (64 * s.cfg.tags.luma.toNat + (dg + 32)), byteOf (16 * (drg + 8) + (dbg + 8))] id

/-- R152, R76: RUN writes one byte, the tag over n - 1, and RUN becomes 0; with well-formed tags the byte is neither of the
two literal tags. -/
def Obligations.RunMeaning : Prop :=
  ∀ (n : BitVec 6) (s : State) (m : Memory), Ready s m → (Instr.run n).wf = true →
    UnitMeaning (.run n) s [byteOf (64 * s.cfg.tags.run.toNat + (n.toNat - 1))] (fun t => { t with run := 0#6 }) ∧
    (s.cfg.tags.wf = true →
      byteOf (64 * s.cfg.tags.run.toNat + (n.toNat - 1)) ≠ s.cfg.tags.rgb ∧
      byteOf (64 * s.cfg.tags.run.toNat + (n.toNat - 1)) ≠ s.cfg.tags.rgba)

/-- R164: RGB writes its tag byte and r, g, b. -/
def Obligations.RgbMeaning : Prop :=
  ∀ (r g b : Byte) (s : State) (m : Memory), Ready s m →
    UnitMeaning (.rgb r g b) s [s.cfg.tags.rgb, r, g, b] id

/-- R154: RGBA writes its tag byte, r, g, b and a; the alpha byte is left out exactly in RUN, with CHANNELS other than 4 and
RUN_LIT3 = 3. -/
def Obligations.RgbaMeaning : Prop :=
  ∀ (r g b a : Byte) (s : State) (m : Memory), Ready s m →
    (s.channels = 4#8 ∨ s.sel ≠ 0b001#3 ∨ s.cfg.runLit3 = .four →
      UnitMeaning (.rgba r g b a) s [s.cfg.tags.rgba, r, g, b, a] id) ∧
    (s.channels ≠ 4#8 ∧ s.sel = 0b001#3 ∧ s.cfg.runLit3 = .three →
      UnitMeaning (.rgba r g b a) s [s.cfg.tags.rgba, r, g, b] id)

/-- R140, R56: HEADER writes the magic, the two sizes most significant byte first, the channel count and the colorspace. -/
def Obligations.HeaderMeaning : Prop :=
  ∀ (w h : Word) (c cs : Byte) (s : State) (m : Memory), Ready s m →
    UnitMeaning (.header w h c cs) s
      [s.cfg.magic.b0, s.cfg.magic.b1, s.cfg.magic.b2, s.cfg.magic.b3,
       byteOf (w.toNat / 2 ^ 24), byteOf (w.toNat / 2 ^ 16), byteOf (w.toNat / 2 ^ 8), byteOf w.toNat,
       byteOf (h.toNat / 2 ^ 24), byteOf (h.toNat / 2 ^ 16), byteOf (h.toNat / 2 ^ 8), byteOf h.toNat, c, cs] id

/-- R141: END writes seven zero bytes and a one. -/
def Obligations.EndMeaning : Prop :=
  ∀ (s : State) (m : Memory), Ready s m → UnitMeaning .endMarker s [0, 0, 0, 0, 0, 0, 0, 1] id

/-- What every unit leaves unchanged, in every state in which it answers a next state: every register but P,
FAULT.OUT_OVERFLOW and, for RUN, the run counter; every byte of OUT outside the unit's own bytes; all of IN. -/
def Obligations.UnitFrame : Prop :=
  ∀ (i : Instr) (s t : State), exec i s = .next t →
    t = { s with out := t.out, p := t.p, faultOutOverflow := t.faultOutOverflow, run := t.run } ∧
    ((∀ n, i ≠ .run n) → t.run = s.run) ∧
    (∀ n, i = .run n → (t.faultOutOverflow = false → t.run = 0#6) ∧ (t.faultOutOverflow = true → t.run = s.run)) ∧
    (∀ a, a < s.p.toNat ∨ s.p.toNat + unitLength (shortLiteral s) i ≤ a → outByte t a = outByte s a)

/-- A unit stops where the spec leaves no further step (R112) or no buffer (R52), and nowhere else. That these are stops with
these names is the model's choice (log entries 13 and 14). -/
def Obligations.UnitStops : Prop :=
  ∀ (i : Instr) (s : State),
    (faulted s = true → exec i s = .fault .afterFault) ∧
    (faulted s = false → s.refused = true → exec i s = .fault .afterRefusal) ∧
    (faulted s = false → s.refused = false → s.out = none → exec i s = .fault .outAbsent) ∧
    (faulted s = false → s.refused = false → s.out ≠ none → ∃ t, exec i s = .next t)

/-! ### Encoding -/

/-- Decoding the bytes of a well-formed unit gives the unit back, whatever follows it, under every well-formed setting of
the parameters and in both forms of the literal. The full form, shortLit = false, is R70-R77. The model's choice, against
R75's five bytes under the tag: the short form that R154 keeps as RUN_LIT3 = 3 is decoded with alpha 255, the alpha of the
only pixels written in it (R55; log entry 19, DEDUCED); and the place tells header and end marker from opcodes (log
entry 17). A short literal of another alpha is never written, and is left out. -/
def Obligations.DecodeOfEncode : Prop :=
  ∀ (c : Config) (shortLit : Bool) (i : Instr) (rest : List Byte), c.wf = true → i.wf = true →
    (∀ r g b a, i = .rgba r g b a → shortLit = true → a = 255#8) →
    decode c (placeOf shortLit i) (encode c shortLit i ++ rest) = .ok (i, rest)

/-- Encoding what the decoder read gives the bytes back: each byte string has one meaning at its place. At the place
.opcode false this is R70-R77. The model's choice: the places themselves (log entry 17), and at .opcode true the four-byte
literal of RUN_LIT3 = 3 (R154), read with alpha 255 where R75 counts five bytes (log entry 19, DEDUCED). -/
def Obligations.EncodeOfDecode : Prop :=
  ∀ (c : Config) (shortLit : Bool) (place : Place) (bytes rest : List Byte) (i : Instr), c.wf = true →
    (place = .streamStart ∨ place = .streamEnd ∨ place = .opcode shortLit) →
    decode c place bytes = .ok (i, rest) →
    encode c shortLit i ++ rest = bytes ∧ placeOf shortLit i = place ∧ (place ≠ .streamStart → i.wf = true)

/-- Every first byte starts an opcode: with four bytes after it, decoding succeeds (R77). That this also holds of the short
form, shortLit = true, is the model's reading of it (log entry 19, DEDUCED). -/
def Obligations.EveryFirstByteIsAssigned : Prop :=
  ∀ (c : Config) (shortLit : Bool) (b0 b1 b2 b3 b4 : Byte) (rest : List Byte), c.wf = true →
    ∃ i tail, decode c (.opcode shortLit) (b0 :: b1 :: b2 :: b3 :: b4 :: rest) = .ok (i, tail)

/-- The first byte alone gives an opcode's length, for the default tags (R75). -/
def Obligations.FirstByteGivesLength : Prop :=
  ∀ (i : Instr) (b0 : Byte) (tail : List Byte), i.wf = true → placeOf false i = .opcode false →
    encode defaultConfig false i = b0 :: tail →
    (b0 :: tail).length = lengthOfFirstByte b0 ∧
    lengthOfFirstByte b0 = (if b0 = 0xFF#8 then 5 else if b0 = 0xFE#8 then 4 else if b0.toNat / 64 = 2 then 2 else 1)

/-- Words written out from the encodings of opcode_table.json decode to their units: 00iiiiii, 01rrggbb,
10gggggg rrrrbbbb, 11nnnnnn, FE, FF, the header of F1 and the end marker. That a word of 112 bits is read as a header and
one of 64 as an end marker is the model's choice (log entry 17). -/
def Obligations.SpecWordsDecode : Prop :=
  decodeTableWord 8 0b00001110 = some (.index 14#6) ∧
  decodeTableWord 8 0b01111001 = some (.diff 1 0 (-1)) ∧
  decodeTableWord 16 0b1010011010101000 = some (.luma 8 2 (-2)) ∧
  decodeTableWord 8 0b11000010 = some (.run 3#6) ∧
  decodeTableWord 32 0x000064FE = some (.rgb 100#8 0#8 0#8) ∧
  decodeTableWord 40 0x04030201FF = some (.rgba 1#8 2#8 3#8 4#8) ∧
  decodeTableWord 112 0x0004010000000200000066696F71 = some (.header 2#32 1#32 4#8 0#8) ∧
  decodeTableWord 64 0x0100000000000000 = some .endMarker

/-! ### The step -/

/-- A step is the host's move and then the block's: a START takes the whole step; with none presented the step is the
block's own. -/
def Obligations.StepIsMoveThenBlock : Prop :=
  (∀ (s : State) (cmd : StartCmd) (moves : List HostMove), s.host = .start cmd :: moves →
    step s = .next (startCommand cmd { s with host := moves })) ∧
  (∀ (s : State) (moves : List HostMove), Silent s moves → step s = advance { s with host := moves })

/-- A unit placed for the next step is the unit the step writes: for every table word that decodes to a well-formed unit,
the next step stores exactly the unit's bytes at the cursor. Left out, because no pixel selects it (R163: reached only
when a delta lies outside [-2, 1]): LUMA with all three deltas in [-2, 1], for which the step writes DIFF. -/
def Obligations.StepRunsDecodedWord : Prop :=
  ∀ (s : State) (nbits w : Nat) (i : Instr), decodeTableWord nbits w = some i → i.wf = true →
    let u := s.withFetchWord nbits w
    ((∀ dg drg dbg, i = .luma dg drg dbg →
        ¬((Instr.diff (dg + drg) dg (dg + dbg)).wf = true)) →
      ∃ t, step u = .next t ∧ Wrote u t (encode defaultConfig false i)) ∧
    (∀ dg drg dbg, i = .luma dg drg dbg → (Instr.diff (dg + drg) dg (dg + dbg)).wf = true →
      ∃ t, step u = .next t ∧ Wrote u t (encode defaultConfig false (.diff (dg + drg) dg (dg + dbg))))

/-- A pixel step is `exec` of the units its strategy selects, in order, stopping at a fault (R203), and then PREV <- px (R153,
R166, R184) and POS <- POS + CHANNELS (R107). R106 gives the step as a whole; that it is divided into a selection, `exec` of
each unit and a rest is the model's reading (log entry 15, DEDUCED). Stated for one unit and for two, the only numbers a
selection has beside none. -/
def Obligations.PixelStepRunsSelectedUnits : Prop :=
  ∀ (s u : State) (moves : List HostMove) (px : Pixel) (units : List Instr), Silent s moves → Unmarked s →
    s.phase = .pixels → s.pos.toNat < s.pxLen.toNat →
    fetchPixel s s.pos = some px → selectUnits px { s with host := moves } = some (u, units) →
    (units = [] → step s = .next (retire px u)) ∧
    (∀ i t, units = [i] → exec i u = .next t → step s = .next (if faulted t then t else retire px t)) ∧
    (∀ i j t, units = [i, j] → exec i u = .next t → faulted t = true → step s = .next t) ∧
    (∀ i j t v, units = [i, j] → exec i u = .next t → faulted t = false → exec j t = .next v →
      step s = .next (if faulted v then v else retire px v)) ∧
    units.length ≤ 2

/-! ### START and the marks -/

/-- An accepted START latches its operands (R100), seeds the call with R38's values and enters VALIDATE, in one step. BOUND,
PX_LEN, OUT_LEN and, without a descriptor, the descriptor registers are left open. The model's choices: OUT is absent
(DEDUCED from R40; log entry 22), and the two launch arguments are held in State, IN as the buffer's bytes with their
number (log entry 8) and the allocator's answer as allocOk (log entry 11). -/
def Obligations.StartBeginsCall : Prop :=
  ∀ (s : State) (cmd : StartCmd) (moves : List HostMove), s.host = .start cmd :: moves →
    (s.phase = .idle ∨ s.phase = .done ∨ s.phase = .fail) → Unmarked s →
    (cmd.sel = 0b001#3 ∨ cmd.sel = 0b010#3 ∨ cmd.sel = 0b100#3) →
    ∃ t, step s = .next t ∧
      t.phase = .validate ∧ t.err = .none ∧ t.sel = cmd.sel ∧
      t.present.getLsbD 0 = cmd.inPresent ∧ t.present.getLsbD 1 = cmd.lenPresent ∧
      t.present.getLsbD 2 = cmd.descPresent ∧
      (cmd.descPresent = true → t.width = cmd.width ∧ t.height = cmd.height ∧ t.channels = cmd.channels ∧
        t.colorspace = cmd.colorspace) ∧
      t.prev = { r := 0, g := 0, b := 0, a := 255 } ∧ t.run = 0 ∧
      (∀ b : Bucket, t.cache[b.toNat] = { r := 0, g := 0, b := 0, a := 0 }) ∧
      t.p = 0 ∧ t.pos = 0 ∧ t.out = none ∧
      (∀ addr : Word, memRead t addr = cmd.buffer[addr.toNat]?) ∧ t.inLen = cmd.buffer.length ∧ t.allocOk = cmd.allocOk ∧
      faulted t = false ∧ t.refused = false ∧ t.cfg = s.cfg ∧ t.host = moves

/-- R101: a START whose selector is not one-hot sets REFUSED and changes no other state. -/
def Obligations.BadSelectorRefused : Prop :=
  ∀ (s : State) (cmd : StartCmd) (moves : List HostMove), s.host = .start cmd :: moves →
    cmd.sel ≠ 0b001#3 → cmd.sel ≠ 0b010#3 → cmd.sel ≠ 0b100#3 →
    step s = .next { s with host := moves, refused := true }

/-- R110: a START out of turn, or after a fault or a refusal, sets REFUSED and changes nothing else. Without a START R110's
quiescent block takes no step; that a model step then answers next with the block's state kept is the model's choice (log
entry 12). -/
def Obligations.OutOfTurnRefusedAndQuiescent : Prop :=
  (∀ (s : State) (cmd : StartCmd) (moves : List HostMove), s.host = .start cmd :: moves →
    (s.phase = .validate ∨ s.phase = .alloc ∨ s.phase = .header ∨ s.phase = .pixels ∨ s.phase = .footer ∨
      s.faultOutOverflow = true ∨ s.faultInOverrun = true ∨ s.refused = true) →
    step s = .next { s with host := moves, refused := true }) ∧
  (∀ (s : State) (moves : List HostMove), Silent s moves → Unmarked s →
    (s.phase = .idle ∨ s.phase = .done ∨ s.phase = .fail) → step s = .next { s with host := moves })

/-- R112, R203: a state with a FAULT bit or REFUSED set has no further step of its own. That this is a stop of these names is
the model's choice (log entry 13). -/
def Obligations.MarkedStateHasNoStep : Prop :=
  ∀ (s : State) (moves : List HostMove), Silent s moves →
    (faulted s = true → step s = .fault .afterFault ∧ goodEnd s = false) ∧
    (faulted s = false → s.refused = true → step s = .fault .afterRefusal ∧ goodEnd s = false)

/-- R33, R34, R6: no step clears a FAULT bit or REFUSED, and none writes a parameter. -/
def Obligations.MarksAreSticky : Prop :=
  ∀ (s t : State), step s = .next t →
    (s.faultOutOverflow = true → t.faultOutOverflow = true) ∧ (s.faultInOverrun = true → t.faultInOverrun = true) ∧
    (s.refused = true → t.refused = true) ∧ t.cfg = s.cfg

/-- R203: a step that records a fault performs nothing after the faulting access: PHASE, POS, PREV and OUT_LEN keep their
values. A16 lists PREV of a CACHE step that faults as any value, R203 as not updated; following R203 there is the model's
choice (log entry 20, DEDUCED), and no claim about a call that ends rests on it. -/
def Obligations.FaultStopsTheStep : Prop :=
  ∀ (s t : State), step s = .next t → faulted s = false → faulted t = true →
    t.phase = s.phase ∧ t.pos = s.pos ∧ t.prev = s.prev ∧ t.outLen = s.outLen ∧ t.err = s.err ∧ t.refused = s.refused

/-- R21-R34: outside START each register is written only by the steps the spec names beside it. -/
def Obligations.OnlyNamedWriters : Prop :=
  ∀ (s t : State) (moves : List HostMove), Silent s moves → step s = .next t →
    (t.sel = s.sel ∧ t.present = s.present ∧ t.width = s.width ∧ t.height = s.height ∧ t.channels = s.channels ∧
      t.colorspace = s.colorspace ∧ t.inMem = s.inMem ∧ t.inLen = s.inLen ∧ t.allocOk = s.allocOk ∧
      t.refused = s.refused ∧ t.cfg = s.cfg ∧ t.freeCount = s.freeCount ∧ t.host = moves) ∧
    (s.phase ≠ .alloc → t.bound = s.bound ∧ t.pxLen = s.pxLen) ∧
    (s.phase ≠ .pixels → t.pos = s.pos ∧ t.prev = s.prev ∧ t.faultInOverrun = s.faultInOverrun) ∧
    (s.phase ≠ .pixels ∨ s.sel ≠ 0b001#3 → t.run = s.run) ∧
    (s.phase ≠ .pixels ∨ s.sel ≠ 0b100#3 → t.cache = s.cache) ∧
    (s.phase ≠ .footer → t.outLen = s.outLen) ∧
    (s.phase ≠ .validate → s.phase ≠ .alloc → t.err = s.err) ∧
    (s.phase ≠ .header → s.phase ≠ .pixels → s.phase ≠ .footer →
      t.p = s.p ∧ t.faultOutOverflow = s.faultOutOverflow ∧ (s.phase ≠ .alloc → t.out = s.out))

/-- R39: after power-on PHASE = IDLE, FAULT = {}, REFUSED = 0, and OUT is absent (R40). -/
def Obligations.PowerOn : Prop :=
  State.reset.phase = .idle ∧ faulted State.reset = false ∧ State.reset.refused = false ∧ State.reset.out = none

/-! ### Validation and allocation -/

/-- R120, R122: `Invalid` is the eight conditions of the rule, the guard a floor division of naturals that is evaluated
only for a non-zero width. -/
def Obligations.InvalidIsTheEightConditions : Prop :=
  ∀ s : State, invalid s = true ↔
    (s.present.getLsbD 0 = false ∨ s.present.getLsbD 1 = false ∨ s.present.getLsbD 2 = false ∨
     s.width.toNat = 0 ∨ s.height.toNat = 0 ∨ (s.channels.toNat ≠ 3 ∧ s.channels.toNat ≠ 4) ∨ 1 < s.colorspace.toNat ∨
     (s.width.toNat ≠ 0 ∧ s.cfg.maxPixels.toNat / s.width.toNat ≤ s.height.toNat))

/-- R102, R121: the VALIDATE step fails the call with InvalidDescriptor and nothing else, or enters ALLOC and does nothing
else. -/
def Obligations.ValidateStep : Prop :=
  ∀ (s : State) (moves : List HostMove), Silent s moves → Unmarked s → s.phase = .validate →
    (invalid s = true → step s = .next { s with host := moves, err := .invalidDescriptor, phase := .fail }) ∧
    (invalid s = false → step s = .next { s with host := moves, phase := .alloc })

/-- R123, which the spec derives from R120 and R6: an accepted descriptor has at most MAX_PIXELS - WIDTH pixels, WIDTH being
at least 1, and the bound of R124 fits in 32 bits. The limit MAX_PIXELS <= 858993455, part of `Config.wf`, is the spec's own
reading of the guard's purpose (R123). -/
def Obligations.AcceptedSizesDoNotOverflow : Prop :=
  ∀ s : State, s.cfg.wf = true → invalid s = false →
    1 ≤ s.width.toNat ∧ pixelCount s + s.width.toNat ≤ s.cfg.maxPixels.toNat ∧
    pixelCount s * (s.channels.toNat + 1) + 22 < 2 ^ 32 ∧ pixelCount s * s.channels.toNat < 2 ^ 32

/-- R103, R124, R125: the ALLOC step computes both sizes exactly; with the allocator's yes it creates an empty OUT and
enters HEADER, with its no it fails the call with AllocationFailure and no OUT is created. -/
def Obligations.AllocStep : Prop :=
  ∀ (s : State) (moves : List HostMove), Silent s moves → Unmarked s → s.phase = .alloc → s.cfg.wf = true →
    invalid s = false →
    ∃ t, step s = .next t ∧
      t.pxLen.toNat = pixelCount s * s.channels.toNat ∧ t.bound.toNat = pixelCount s * (s.channels.toNat + 1) + 14 + 8 ∧
      (s.allocOk = true →
        t = { s with host := moves, pxLen := t.pxLen, bound := t.bound, out := some [], phase := .header }) ∧
      (s.allocOk = false →
        t = { s with host := moves, pxLen := t.pxLen, bound := t.bound, err := .allocationFailure, phase := .fail })

/-! ### Header, scan, footer -/

/-- R104, R140: the HEADER step writes the fourteen bytes of the descriptor registers and enters PIXELS. -/
def Obligations.HeaderStep : Prop :=
  ∀ (s : State) (moves : List HostMove) (m : Memory), Silent s moves → Ready s m → s.phase = .header →
    s.p.toNat + 14 ≤ s.bound.toNat →
    ∃ t, step s = .next t ∧ Wrote s t (headerBytes s.cfg.magic s.width s.height s.channels s.colorspace) ∧
      t = { s with host := moves, out := t.out, p := t.p, phase := .pixels }

/-- R105: in PIXELS with POS = PX_LEN the step does only PHASE <- FOOTER. -/
def Obligations.EndTest : Prop :=
  ∀ (s : State) (moves : List HostMove), Silent s moves → Unmarked s → s.phase = .pixels → s.pos = s.pxLen →
    step s = .next { s with host := moves, phase := .footer }

/-- R108, R109, R141: the FOOTER step writes the end marker, sets OUT_LEN to the new P and enters DONE; where the marker
does not fit it writes the bytes below BOUND and records OUT_OVERFLOW. -/
def Obligations.FooterStep : Prop :=
  ∀ (s : State) (moves : List HostMove) (m : Memory), Silent s moves → Ready s m → s.phase = .footer →
    (s.p.toNat + 8 ≤ s.bound.toNat →
      ∃ t, step s = .next t ∧ Wrote s t [0, 0, 0, 0, 0, 0, 0, 1] ∧
        t = { s with host := moves, out := t.out, p := t.p, outLen := t.p, phase := .done }) ∧
    (s.bound.toNat < s.p.toNat + 8 →
      ∃ t, step s = .next t ∧
        Wrote s t (([0, 0, 0, 0, 0, 0, 0, 1] : List Byte).take (s.bound.toNat - s.p.toNat)) ∧
        t = { s with host := moves, out := t.out, p := t.p, faultOutOverflow := true })

/-- R51, R55, R203: a pixel that reaches past IN_LEN records IN_OVERRUN and changes nothing else; one that lies below it is
fetched, r at the lowest offset, alpha 255 for three channels. -/
def Obligations.FetchAndOverrun : Prop :=
  ∀ (s : State) (moves : List HostMove), Silent s moves → Unmarked s → s.phase = .pixels →
    s.pos.toNat < s.pxLen.toNat → (s.channels = 3#8 ∨ s.channels = 4#8) →
    s.pos.toNat + s.channels.toNat ≤ 2 ^ 32 →
    (s.inLen < s.pos.toNat + s.channels.toNat → step s = .next { s with host := moves, faultInOverrun := true }) ∧
    (s.pos.toNat + s.channels.toNat ≤ s.inLen →
      ∃ px, fetchPixel s s.pos = some px ∧
        Memory.read .IN s.inMem s.pos.toNat = some px.r ∧ Memory.read .IN s.inMem (s.pos.toNat + 1) = some px.g ∧
        Memory.read .IN s.inMem (s.pos.toNat + 2) = some px.b ∧
        (s.channels = 4#8 → Memory.read .IN s.inMem (s.pos.toNat + 3) = some px.a) ∧
        (s.channels = 3#8 → px.a = 255#8))

/-! ### The strategies -/

/-- R150, R152, R153: a pixel equal to PREV counts; at 62 or at the last pixel the run is flushed as one byte, its length
less one under the run tag, and RUN becomes 0. -/
def Obligations.RunStepEqual : Prop :=
  ∀ (s : State) (moves : List HostMove) (m : Memory), Silent s moves → Ready s m → s.phase = .pixels →
    s.sel = 0b001#3 → s.pos.toNat < s.pxLen.toNat → fetchPixel s s.pos = some s.prev → s.run.toNat ≤ 61 →
    (s.run.toNat + 1 ≠ 62 → s.pos ≠ s.pxLen - s.channels.setWidth 32 →
      step s = .next { s with host := moves, run := s.run + 1, pos := s.pos + s.channels.setWidth 32 }) ∧
    ((s.run.toNat + 1 = 62 ∨ s.pos = s.pxLen - s.channels.setWidth 32) → s.p.toNat < s.bound.toNat →
      ∃ t, step s = .next t ∧ Wrote s t [byteOf (64 * s.cfg.tags.run.toNat + s.run.toNat)] ∧
        t = { s with host := moves, out := t.out, p := t.p, run := 0, pos := s.pos + s.channels.setWidth 32 })

/-- R151, R153, R154: a pixel that differs from PREV flushes a pending run and then writes the literal, with its alpha byte
or in its short form; RUN becomes 0 and PREV the pixel. -/
def Obligations.RunStepDifferent : Prop :=
  ∀ (s : State) (moves : List HostMove) (m : Memory) (px : Pixel), Silent s moves → Ready s m → s.phase = .pixels →
    s.sel = 0b001#3 → s.pos.toNat < s.pxLen.toNat → fetchPixel s s.pos = some px → px ≠ s.prev →
    (s.run = 0 → s.p.toNat + (runLiteral s px).length ≤ s.bound.toNat →
      ∃ t, step s = .next t ∧ Wrote s t (runLiteral s px) ∧
        t = { s with host := moves, out := t.out, p := t.p, prev := px, pos := s.pos + s.channels.setWidth 32 }) ∧
    (s.run ≠ 0 → s.p.toNat + 1 + (runLiteral s px).length ≤ s.bound.toNat →
      ∃ t, step s = .next t ∧
        Wrote s t (byteOf (64 * s.cfg.tags.run.toNat + (s.run.toNat - 1)) :: runLiteral s px) ∧
        t = { s with
          host := moves, out := t.out, p := t.p, run := 0, prev := px, pos := s.pos + s.channels.setWidth 32 })

/-- R160, R161, R166: DELTA writes one unit per pixel, chosen in the fixed order alpha change, DIFF, LUMA, RGB, and PREV
becomes the pixel; CACHE and RUN are not touched. -/
def Obligations.DeltaStep : Prop :=
  ∀ (s : State) (moves : List HostMove) (m : Memory) (px : Pixel), Silent s moves → Ready s m → s.phase = .pixels →
    s.sel = 0b010#3 → s.pos.toNat < s.pxLen.toNat → fetchPixel s s.pos = some px →
    s.p.toNat + (deltaBytes s.cfg.tags px s.prev).length ≤ s.bound.toNat →
    ∃ t, step s = .next t ∧ Wrote s t (deltaBytes s.cfg.tags px s.prev) ∧
      t = { s with host := moves, out := t.out, p := t.p, prev := px, pos := s.pos + s.channels.setWidth 32 }

/-- R165: dr, dg, db are the channel differences modulo 256 in [-128, 127]; dr_g and db_g are exact differences of those (the
spec's own choice, D20); and wrapping the two luma differences to eight bits once more never changes the choice of LUMA nor
its bytes (derived in R165). -/
def Obligations.RewrappingLumaChangesNothing : Prop :=
  ∀ (px prev : Pixel) (t : Tags),
    let d := deltasOf px prev
    let e : Deltas := { d with drg := (BitVec.ofInt 8 d.drg).toInt, dbg := (BitVec.ofInt 8 d.dbg).toInt }
    ((px.r.toNat - prev.r.toNat - d.dr : Int) % 256 = 0 ∧ -128 ≤ d.dr ∧ d.dr ≤ 127) ∧
    ((px.g.toNat - prev.g.toNat - d.dg : Int) % 256 = 0 ∧ -128 ≤ d.dg ∧ d.dg ≤ 127) ∧
    ((px.b.toNat - prev.b.toNat - d.db : Int) % 256 = 0 ∧ -128 ≤ d.db ∧ d.db ≤ 127) ∧
    d.drg = d.dr - d.dg ∧ d.dbg = d.db - d.dg ∧
    (lumaFits d = true ↔ lumaFits e = true) ∧ (lumaFits d = true → lumaBytes t d.dg d.drg d.dbg = lumaBytes t e.dg e.drg e.dbg)

/-- R180, R182, R183, R184: CACHE compares the pixel with the one slot it hashes to; a hit writes one INDEX byte and no
slot, a miss overwrites that slot only and writes the five-byte literal. -/
def Obligations.CacheStep : Prop :=
  ∀ (s : State) (moves : List HostMove) (m : Memory) (px : Pixel), Silent s moves → Ready s m → s.phase = .pixels →
    s.sel = 0b100#3 → s.pos.toNat < s.pxLen.toNat → fetchPixel s s.pos = some px →
    let b := hashOf s.cfg.hash px
    (s.cache[b.toNat] = px → s.p.toNat + 1 ≤ s.bound.toNat →
      ∃ t, step s = .next t ∧ Wrote s t [byteOf (64 * s.cfg.tags.index.toNat + b.toNat)] ∧
        t = { s with host := moves, out := t.out, p := t.p, prev := px, pos := s.pos + s.channels.setWidth 32 }) ∧
    (s.cache[b.toNat] ≠ px → s.p.toNat + 5 ≤ s.bound.toNat →
      ∃ t, step s = .next t ∧ Wrote s t [s.cfg.tags.rgba, px.r, px.g, px.b, px.a] ∧
        t = { s with
          host := moves, out := t.out, p := t.p, prev := px, pos := s.pos + s.channels.setWidth 32,
          cache := t.cache } ∧
        t.cache[b.toNat] = px ∧ ∀ k : Bucket, k ≠ b → t.cache[k.toNat] = s.cache[k.toNat])

/-- R181: the published mix is (3r + 5g + 7b + 11a) mod 64, computed exactly. -/
def Obligations.PublishedHash : Prop :=
  ∀ px : Pixel, (hashOf .published px).toNat = (3 * px.r.toNat + 5 * px.g.toNat + 7 * px.b.toNat + 11 * px.a.toNat) % 64

/-- R186: the miss of a pixel makes its next occurrence a hit, until a different pixel of the same bucket overwrites the
slot; a pixel of another bucket does not. Whatever the mix. -/
def Obligations.MissThenHit : Prop :=
  ∀ (s : State) (px q : Pixel), cacheHit s px = false →
    let b := hashOf s.cfg.hash px
    let s1 := (cacheSelect px s).1
    cacheSelect px s1 = (s1, [.index b]) ∧
    (hashOf s.cfg.hash q ≠ b → cacheSelect px (cacheSelect q s1).1 = ((cacheSelect q s1).1, [.index b])) ∧
    (hashOf s.cfg.hash q = b → q ≠ px → (cacheSelect px (cacheSelect q s1).1).2 = [.rgba px.r px.g px.b px.a])

/-- R78, R156, R167: the block never selects a unit outside its strategy's set. -/
def Obligations.StrategyRepertoire : Prop :=
  ∀ (s t : State) (px : Pixel) (units : List Instr) (i : Instr), selectUnits px s = some (t, units) → i ∈ units →
    match i with
    | .index _ => s.sel = 0b100#3
    | .diff _ _ _ => s.sel = 0b010#3
    | .luma _ _ _ => s.sel = 0b010#3
    | .run _ => s.sel = 0b001#3
    | .rgb _ _ _ => s.sel = 0b010#3
    | .rgba _ _ _ _ => s.sel = 0b001#3 ∨ s.sel = 0b010#3 ∨ s.sel = 0b100#3
    | .header _ _ _ _ => False
    | .endMarker => False

/-- Every unit a pixel step selects is well formed (R73: no truncation ever changes a field), so it decodes from the bytes
the step writes for it. For the short literal of R154 the pixel's alpha is 255 (R55), and that the decoder fills in that
alpha is the model's choice (log entry 19, DEDUCED). -/
def Obligations.SelectedUnitsDecode : Prop :=
  ∀ (s t : State) (px : Pixel) (units : List Instr) (i : Instr) (rest : List Byte),
    s.cfg.wf = true → s.run.toNat ≤ 61 → selectUnits px s = some (t, units) → i ∈ units →
    (shortLiteral s = true → px.a = 255#8) →
    i.wf = true ∧
    decode s.cfg (.opcode (shortLiteral s)) (encode s.cfg (shortLiteral s) i ++ rest) = .ok (i, rest)

/-- Losslessness, pixel by pixel: what a strategy writes names, by the reading of R74, exactly what it stands for. DELTA and
CACHE: the pixel. RUN: the pending copies of PREV, then the pixel. -/
def Obligations.SelectedUnitsNameThePixel : Prop :=
  ∀ (s t : State) (px : Pixel) (units : List Instr), selectUnits px s = some (t, units) →
    (s.sel ≠ 0b001#3 → units.flatMap (namedPixels s.prev s.cache) = [px]) ∧
    (s.sel = 0b001#3 → s.run.toNat ≤ 61 →
      units.flatMap (namedPixels s.prev s.cache) ++ List.replicate (if units = [] then t.run.toNat else 0) s.prev =
        List.replicate s.run.toNat s.prev ++ [px])

/-! ### Invariants -/

/-- The invariant holds after power-on. -/
def Obligations.InvariantAtReset : Prop :=
  Inv State.reset ∧ Capacity State.reset ∧ StreamFramed State.reset ∧ BuffersCanonical State.reset

/-- Every step keeps the invariant: R22, R24, R25, R27, R30, R32, R52, R60, R123, R127, R155, R161 and R203 hold in every
state a run reaches. -/
def Obligations.InvariantKept : Prop :=
  ∀ s t : State, Inv s → step s = .next t → Inv t

/-- Every step keeps both buffers in their canonical form, from any state whose buffers are. -/
def Obligations.BuffersCanonicalKept : Prop :=
  ∀ s t : State, BuffersCanonical s → step s = .next t → BuffersCanonical t

/-- R126: on the rows of the table that fit, no step records OUT_OVERFLOW. -/
def Obligations.FittingRowsNeverOverflow : Prop :=
  ∀ s t : State, Inv s → Capacity s → step s = .next t → Capacity t

/-- R70: every stream begins with the header of its descriptor and a finished one ends with the end marker. -/
def Obligations.StreamFrameKept : Prop :=
  ∀ s t : State, Inv s → StreamFramed s → step s = .next t → StreamFramed t

/-- R29, R60: within a call P never decreases and no byte below P is ever written again. A step that begins a new call is
the only other one. -/
def Obligations.CursorMonotone : Prop :=
  ∀ s t : State, Inv s → step s = .next t →
    (t.phase = .validate ∧ accepts s = true) ∨ s.out = none ∨
    (s.p.toNat ≤ t.p.toNat ∧ ∀ a, a < s.p.toNat → outByte t a = outByte s a)

/-- A state of the invariant without a mark always has a step: no run ends in a stop except after a FAULT bit or a
refusal (R111, R112). In IDLE, DONE and FAIL with no START presented the block itself takes no step (R110); that a model step
then answers next with the block's state kept is the model's choice (log entry 12). -/
def Obligations.UnmarkedStatesProgress : Prop :=
  ∀ s : State, Inv s → Unmarked s → ∃ t, step s = .next t

/-- R113: left alone, a call from VALIDATE ends, in DONE or FAIL, or records a FAULT bit, within W*H + 5 steps. -/
def Obligations.EveryCallTerminates : Prop :=
  ∀ s : State, Inv s → Unmarked s → s.phase = .validate → s.host = [] →
    ∃ k t, k ≤ pixelCount s + 5 ∧ Sys2Proof.core.run k s = .next t ∧ (ended t = true ∨ faulted t = true)

/-- R114, R100: the result is a function of the START operands, the input bytes and the allocator's answer: two instances
with the same parameters, whatever calls went before on them, given the same START, show the same result
and the same phase after every number of steps. Steps counted past the call's end, where the block takes none (R110), keep
its state by the model's choice (log entry 12); the allocator's answer is a launch argument held in State (log entry 11). -/
def Obligations.ResultForgetsThePast : Prop :=
  ∀ (s1 s2 : State) (cmd : StartCmd) (k : Nat) (t1 : State), accepts s1 = true → accepts s2 = true →
    s1.cfg = s2.cfg → s1.host = [.start cmd] → s2.host = [.start cmd] →
    legalSel cmd.sel = true → Sys2Proof.core.run (k + 1) s1 = .next t1 →
    ∃ t2, Sys2Proof.core.run (k + 1) s2 = .next t2 ∧ result t2 = result t1 ∧ t2.phase = t1.phase ∧ t2.err = t1.err ∧
      faulted t2 = faulted t1

/-- R61, R109, R115: the host gets a result in DONE only, of exactly OUT_LEN bytes, and sees an error in FAIL only, one of the
two kinds (R32). -/
def Obligations.ResultInDoneOnly : Prop :=
  ∀ s : State, Inv s →
    (s.phase = .done → ∃ l, result s = some l ∧ l.length = s.outLen.toNat ∧
      ∀ k, k < s.outLen.toNat → l[k]? = outByte s k) ∧
    (s.phase ≠ .done → result s = none) ∧
    (s.phase = .fail → observedError s = some .invalidDescriptor ∨ observedError s = some .allocationFailure) ∧
    (s.phase ≠ .fail → observedError s = none)
end

