-- ==== Sys2Proof/Laws/Memory.lean ====
section
/-! SUPPORT. The laws of a buffer: a read after a write, and that every operation keeps the canonical form. -/
namespace Sys2Proof.Machine

/-! ### Reading after a write -/

theorem Memory.read_put_same (sp : Space) (m : Memory) (addr : Nat) (v : Byte) :
    Memory.read sp (Memory.put m addr v) addr = some v := by
  induction m with
  | nil => simp [Memory.put, Memory.read]
  | cons c m ih =>
    unfold Memory.put
    split
    · simp [Memory.read]
    · split
      · simp [Memory.read]
      · rename_i hne
        simp [Memory.read, Ne.symm hne, ih]

theorem Memory.read_put_other (sp : Space) (m : Memory) (addr a : Nat) (v : Byte) (h : a ≠ addr) :
    Memory.read sp (Memory.put m addr v) a = Memory.read sp m a := by
  induction m with
  | nil => simp [Memory.put, Memory.read, Ne.symm h]
  | cons c m ih =>
    unfold Memory.put
    split
    · simp [Memory.read, Ne.symm h]
    · split
      · rename_i heq
        simp [Memory.read, ← heq, Ne.symm h]
      · simp [Memory.read, ih]

theorem Memory.read_erase_other (sp : Space) (m : Memory) (addr a : Nat) (h : a ≠ addr) :
    Memory.read sp (Memory.erase m addr) a = Memory.read sp m a := by
  induction m with
  | nil => rfl
  | cons c m ih =>
    unfold Memory.erase
    split
    · rename_i heq
      simp [Memory.read, heq, Ne.symm h]
    · simp [Memory.read, ih]

/-- Rising means: the head lies below every later address, and the tail is rising. -/
theorem Memory.rising_cons (c : Host.Cell) (m : Memory) :
    Memory.rising (c :: m) = true ↔ (∀ d ∈ m, c.1 < d.1) ∧ Memory.rising m = true := by
  induction m generalizing c with
  | nil => simp [Memory.rising]
  | cons d m ih =>
    have hd := ih d
    simp only [Memory.rising, Bool.and_eq_true, decide_eq_true_eq, List.mem_cons, forall_eq_or_imp] at *
    constructor
    · rintro ⟨h1, h2⟩
      exact ⟨⟨h1, fun e he => Nat.lt_trans h1 ((hd.mp h2).1 e he)⟩, h2⟩
    · rintro ⟨⟨h1, -⟩, h2⟩
      exact ⟨h1, h2⟩

theorem Memory.read_unlisted (sp : Space) (m : Memory) (addr : Nat) (h : ∀ d ∈ m, d.1 ≠ addr) :
    Memory.read sp m addr = unlisted sp := by
  induction m with
  | nil => rfl
  | cons c m ih =>
    simp only [List.mem_cons, forall_eq_or_imp] at h
    simp [Memory.read, h.1, ih h.2]

theorem Memory.read_erase_same (sp : Space) (m : Memory) (addr : Nat) (hr : Memory.rising m = true) :
    Memory.read sp (Memory.erase m addr) addr = unlisted sp := by
  induction m with
  | nil => rfl
  | cons c m ih =>
    obtain ⟨hlt, hr⟩ := (Memory.rising_cons c m).mp hr
    unfold Memory.erase
    split
    · rename_i heq
      exact Memory.read_unlisted sp m addr fun d hd => by have := hlt d hd; omega
    · rename_i hne
      simp [Memory.read, hne, ih hr]

theorem Memory.read_write_same (sp : Space) (m : Memory) (addr : Nat) (v : Byte) (h : Memory.wf sp m = true) :
    Memory.read sp (Memory.write sp m addr v) addr = some v := by
  unfold Memory.write
  split
  · rename_i hv
    rw [hv, Memory.read_erase_same sp m addr (by simp [Memory.wf] at h; exact h.1)]
  · exact Memory.read_put_same sp m addr v

theorem Memory.read_write_other (sp : Space) (m : Memory) (addr a : Nat) (v : Byte) (h : a ≠ addr) :
    Memory.read sp (Memory.write sp m addr v) a = Memory.read sp m a := by
  unfold Memory.write
  split
  · exact Memory.read_erase_other sp m addr a h
  · exact Memory.read_put_other sp m addr a v h

/-- OUT lists every byte written to it, so a read after a write needs no canonical form. -/
theorem Memory.read_write_out_same (m : Memory) (addr : Nat) (v : Byte) :
    Memory.read .OUT (Memory.write .OUT m addr v) addr = some v := by
  simp [Memory.write, unlisted, Memory.read_put_same]

/-- The bytes written are read back; every other address reads as before. -/
theorem Memory.read_writeList_out (vs : List Byte) (m : Memory) (addr a : Nat) :
    Memory.read .OUT (Memory.writeList .OUT m addr vs) a =
      if addr ≤ a ∧ a < addr + vs.length then vs[a - addr]? else Memory.read .OUT m a := by
  induction vs generalizing m addr with
  | nil =>
    rw [if_neg (by simp only [List.length_nil]; omega)]
    rfl
  | cons v vs ih =>
    rw [Memory.writeList, ih]
    by_cases ha : a = addr
    · subst ha
      rw [if_neg (by omega), Memory.read_write_out_same, if_pos (by simp)]
      simp
    · rw [Memory.read_write_other .OUT m addr a v ha]
      by_cases h : addr + 1 ≤ a ∧ a < addr + 1 + vs.length
      · rw [if_pos h, if_pos (by simp; omega)]
        obtain ⟨k, rfl⟩ : ∃ k, a = addr + 1 + k := ⟨a - (addr + 1), by omega⟩
        rw [show addr + 1 + k - (addr + 1) = k by omega, show addr + 1 + k - addr = k + 1 by omega]
        simp
      · rw [if_neg h, if_neg (by simp; omega)]

/-! ### The canonical form -/

theorem Memory.wf_iff (sp : Space) (m : Memory) :
    Memory.wf sp m = true ↔ Memory.rising m = true ∧ ∀ c ∈ m, some c.2 ≠ unlisted sp := by
  simp [Memory.wf]

theorem Memory.mem_put (m : Memory) (addr : Nat) (v : Byte) (c : Host.Cell) (h : c ∈ Memory.put m addr v) :
    c = (addr, v) ∨ c ∈ m := by
  induction m with
  | nil => simpa [Memory.put] using h
  | cons d m ih =>
    unfold Memory.put at h
    split at h
    · simpa using h
    · split at h
      · exact (List.mem_cons.mp h).imp id (List.mem_cons_of_mem d)
      · rcases List.mem_cons.mp h with rfl | h
        · exact Or.inr List.mem_cons_self
        · exact (ih h).imp id (List.mem_cons_of_mem d)

theorem Memory.mem_erase (m : Memory) (addr : Nat) (c : Host.Cell) (h : c ∈ Memory.erase m addr) : c ∈ m := by
  induction m with
  | nil => simp [Memory.erase] at h
  | cons d m ih =>
    unfold Memory.erase at h
    split at h
    · exact List.mem_cons_of_mem _ h
    · rcases List.mem_cons.mp h with h | h
      · exact h ▸ List.mem_cons_self
      · exact List.mem_cons_of_mem _ (ih h)

theorem Memory.rising_put (m : Memory) (addr : Nat) (v : Byte) (h : Memory.rising m = true) :
    Memory.rising (Memory.put m addr v) = true := by
  induction m with
  | nil => rfl
  | cons d m ih =>
    obtain ⟨hlt, hr⟩ := (Memory.rising_cons d m).mp h
    unfold Memory.put
    split
    · rename_i ha
      refine (Memory.rising_cons _ _).mpr ⟨fun e he => ?_, h⟩
      rcases List.mem_cons.mp he with rfl | he
      · exact ha
      · exact Nat.lt_trans ha (hlt e he)
    · split
      · rename_i heq
        exact (Memory.rising_cons _ _).mpr ⟨fun e he => heq ▸ hlt e he, hr⟩
      · refine (Memory.rising_cons _ _).mpr ⟨fun e he => ?_, ih hr⟩
        rcases Memory.mem_put m addr v e he with rfl | he
        · show d.1 < addr
          omega
        · exact hlt e he

theorem Memory.rising_erase (m : Memory) (addr : Nat) (h : Memory.rising m = true) :
    Memory.rising (Memory.erase m addr) = true := by
  induction m with
  | nil => rfl
  | cons d m ih =>
    obtain ⟨hlt, hr⟩ := (Memory.rising_cons d m).mp h
    unfold Memory.erase
    split
    · exact hr
    · exact (Memory.rising_cons _ _).mpr ⟨fun e he => hlt e (Memory.mem_erase m addr e he), ih hr⟩

theorem Memory.write_wf (sp : Space) (m : Memory) (addr : Nat) (v : Byte) (h : Memory.wf sp m = true) :
    Memory.wf sp (Memory.write sp m addr v) = true := by
  rw [Memory.wf_iff] at h ⊢
  unfold Memory.write
  split
  · exact ⟨Memory.rising_erase m addr h.1, fun c hc => h.2 c (Memory.mem_erase m addr c hc)⟩
  · rename_i hv
    refine ⟨Memory.rising_put m addr v h.1, fun c hc => ?_⟩
    rcases Memory.mem_put m addr v c hc with rfl | hc
    · exact hv
    · exact h.2 c hc

theorem Memory.writeList_wf (sp : Space) (vs : List Byte) (m : Memory) (addr : Nat) (h : Memory.wf sp m = true) :
    Memory.wf sp (Memory.writeList sp m addr vs) = true := by
  induction vs generalizing m addr with
  | nil => exact h
  | cons v vs ih => exact ih _ _ (Memory.write_wf sp m addr v h)

theorem Memory.mem_ofBytes (sp : Space) (vs : List Byte) (addr : Nat) (c : Host.Cell)
    (h : c ∈ Memory.ofBytes sp addr vs) : addr ≤ c.1 ∧ c.1 < addr + vs.length ∧ some c.2 ≠ unlisted sp := by
  induction vs generalizing addr with
  | nil => simp [Memory.ofBytes] at h
  | cons v vs ih =>
    unfold Memory.ofBytes at h
    split at h
    · have := ih (addr + 1) h
      simp only [List.length_cons]
      exact ⟨by omega, by omega, this.2.2⟩
    · rcases List.mem_cons.mp h with rfl | h
      · simp_all
      · have := ih (addr + 1) h
        simp only [List.length_cons]
        exact ⟨by omega, by omega, this.2.2⟩

theorem Memory.ofBytes_wf (sp : Space) (vs : List Byte) (addr : Nat) :
    Memory.wf sp (Memory.ofBytes sp addr vs) = true := by
  rw [Memory.wf_iff]
  refine ⟨?_, fun c hc => (Memory.mem_ofBytes sp vs addr c hc).2.2⟩
  induction vs generalizing addr with
  | nil => rfl
  | cons v vs ih =>
    unfold Memory.ofBytes
    split
    · exact ih (addr + 1)
    · exact (Memory.rising_cons _ _).mpr ⟨fun d hd => (Memory.mem_ofBytes sp vs (addr + 1) d hd).1, ih (addr + 1)⟩

/-- The input buffer reads back the bytes it was made of. -/
theorem Memory.read_ofBytes_in (vs : List Byte) (addr k : Nat) (h : k < vs.length) :
    Memory.read .IN (Memory.ofBytes .IN addr vs) (addr + k) = vs[k]? := by
  induction vs generalizing addr k with
  | nil => simp at h
  | cons v vs ih =>
    unfold Memory.ofBytes
    cases k with
    | zero =>
      split
      · rename_i hv
        rw [Memory.read_unlisted _ _ _ fun d hd => by have := (Memory.mem_ofBytes .IN vs (addr + 1) d hd).1; omega]
        simp [hv]
      · simp [Memory.read]
    | succ k =>
      have hk : k < vs.length := by simpa using h
      have := ih (addr + 1) k hk
      rw [show addr + 1 + k = addr + (k + 1) by omega] at this
      split
      · simpa using this
      · simpa [Memory.read] using this

/-! ### OUT lists exactly the offsets below the cursor -/

theorem Memory.offsets_put (m : Memory) (lo n : Nat) (v : Byte) (h : m.map Prod.fst = List.range' lo n) :
    (Memory.put m (lo + n) v).map Prod.fst = List.range' lo (n + 1) := by
  induction n generalizing m lo with
  | zero =>
    cases m with
    | nil => simp [Memory.put]
    | cons c m => simp at h
  | succ n ih =>
    cases m with
    | nil => simp [List.range'] at h
    | cons c m =>
      simp only [List.map_cons, List.range'_succ, List.cons.injEq] at h
      have ih := ih m (lo + 1) h.2
      rw [show lo + 1 + n = lo + (n + 1) by omega] at ih
      unfold Memory.put
      rw [if_neg (by omega), if_neg (by omega), List.map_cons, ih, h.1]
      simp [List.range'_succ]

/-- Bytes written at the first unlisted offset extend the listed offsets without a gap (R60). -/
theorem Memory.offsets_writeList (vs : List Byte) (m : Memory) (n : Nat) (h : m.map Prod.fst = List.range n) :
    (Memory.writeList .OUT m n vs).map Prod.fst = List.range (n + vs.length) := by
  induction vs generalizing m n with
  | nil => simpa [Memory.writeList] using h
  | cons v vs ih =>
    have hw : (Memory.write .OUT m n v).map Prod.fst = List.range (n + 1) := by
      rw [List.range_eq_range'] at h ⊢
      simpa [Memory.write, unlisted] using Memory.offsets_put m 0 n v h
    rw [Memory.writeList, ih _ _ hw]
    congr 1
    simp only [List.length_cons]
    omega

end Sys2Proof.Machine
end

