-- ==== Sys2Proof/Laws/State.lean ====
section
/-! SUPPORT. What each named update of the state does to each field: one lemma per field per update. -/
namespace Sys2Proof.Machine

/-! ### `raiseOutOverflow` -/

@[simp] theorem raiseOutOverflow_cfg (s : State) : (raiseOutOverflow s).cfg = s.cfg := rfl
@[simp] theorem raiseOutOverflow_host (s : State) : (raiseOutOverflow s).host = s.host := rfl
@[simp] theorem raiseOutOverflow_freeCount (s : State) : (raiseOutOverflow s).freeCount = s.freeCount := rfl
@[simp] theorem raiseOutOverflow_phase (s : State) : (raiseOutOverflow s).phase = s.phase := rfl
@[simp] theorem raiseOutOverflow_err (s : State) : (raiseOutOverflow s).err = s.err := rfl
@[simp] theorem raiseOutOverflow_faultOutOverflow (s : State) : (raiseOutOverflow s).faultOutOverflow = true := rfl
@[simp] theorem raiseOutOverflow_faultInOverrun (s : State) : (raiseOutOverflow s).faultInOverrun = s.faultInOverrun := rfl
@[simp] theorem raiseOutOverflow_refused (s : State) : (raiseOutOverflow s).refused = s.refused := rfl
@[simp] theorem raiseOutOverflow_sel (s : State) : (raiseOutOverflow s).sel = s.sel := rfl
@[simp] theorem raiseOutOverflow_present (s : State) : (raiseOutOverflow s).present = s.present := rfl
@[simp] theorem raiseOutOverflow_width (s : State) : (raiseOutOverflow s).width = s.width := rfl
@[simp] theorem raiseOutOverflow_height (s : State) : (raiseOutOverflow s).height = s.height := rfl
@[simp] theorem raiseOutOverflow_channels (s : State) : (raiseOutOverflow s).channels = s.channels := rfl
@[simp] theorem raiseOutOverflow_colorspace (s : State) : (raiseOutOverflow s).colorspace = s.colorspace := rfl
@[simp] theorem raiseOutOverflow_bound (s : State) : (raiseOutOverflow s).bound = s.bound := rfl
@[simp] theorem raiseOutOverflow_pxLen (s : State) : (raiseOutOverflow s).pxLen = s.pxLen := rfl
@[simp] theorem raiseOutOverflow_pos (s : State) : (raiseOutOverflow s).pos = s.pos := rfl
@[simp] theorem raiseOutOverflow_prev (s : State) : (raiseOutOverflow s).prev = s.prev := rfl
@[simp] theorem raiseOutOverflow_run (s : State) : (raiseOutOverflow s).run = s.run := rfl
@[simp] theorem raiseOutOverflow_cache (s : State) : (raiseOutOverflow s).cache = s.cache := rfl
@[simp] theorem raiseOutOverflow_p (s : State) : (raiseOutOverflow s).p = s.p := rfl
@[simp] theorem raiseOutOverflow_outLen (s : State) : (raiseOutOverflow s).outLen = s.outLen := rfl
@[simp] theorem raiseOutOverflow_inMem (s : State) : (raiseOutOverflow s).inMem = s.inMem := rfl
@[simp] theorem raiseOutOverflow_inLen (s : State) : (raiseOutOverflow s).inLen = s.inLen := rfl
@[simp] theorem raiseOutOverflow_allocOk (s : State) : (raiseOutOverflow s).allocOk = s.allocOk := rfl
@[simp] theorem raiseOutOverflow_out (s : State) : (raiseOutOverflow s).out = s.out := rfl

/-! ### `raiseInOverrun` -/

@[simp] theorem raiseInOverrun_cfg (s : State) : (raiseInOverrun s).cfg = s.cfg := rfl
@[simp] theorem raiseInOverrun_host (s : State) : (raiseInOverrun s).host = s.host := rfl
@[simp] theorem raiseInOverrun_freeCount (s : State) : (raiseInOverrun s).freeCount = s.freeCount := rfl
@[simp] theorem raiseInOverrun_phase (s : State) : (raiseInOverrun s).phase = s.phase := rfl
@[simp] theorem raiseInOverrun_err (s : State) : (raiseInOverrun s).err = s.err := rfl
@[simp] theorem raiseInOverrun_faultOutOverflow (s : State) : (raiseInOverrun s).faultOutOverflow = s.faultOutOverflow := rfl
@[simp] theorem raiseInOverrun_faultInOverrun (s : State) : (raiseInOverrun s).faultInOverrun = true := rfl
@[simp] theorem raiseInOverrun_refused (s : State) : (raiseInOverrun s).refused = s.refused := rfl
@[simp] theorem raiseInOverrun_sel (s : State) : (raiseInOverrun s).sel = s.sel := rfl
@[simp] theorem raiseInOverrun_present (s : State) : (raiseInOverrun s).present = s.present := rfl
@[simp] theorem raiseInOverrun_width (s : State) : (raiseInOverrun s).width = s.width := rfl
@[simp] theorem raiseInOverrun_height (s : State) : (raiseInOverrun s).height = s.height := rfl
@[simp] theorem raiseInOverrun_channels (s : State) : (raiseInOverrun s).channels = s.channels := rfl
@[simp] theorem raiseInOverrun_colorspace (s : State) : (raiseInOverrun s).colorspace = s.colorspace := rfl
@[simp] theorem raiseInOverrun_bound (s : State) : (raiseInOverrun s).bound = s.bound := rfl
@[simp] theorem raiseInOverrun_pxLen (s : State) : (raiseInOverrun s).pxLen = s.pxLen := rfl
@[simp] theorem raiseInOverrun_pos (s : State) : (raiseInOverrun s).pos = s.pos := rfl
@[simp] theorem raiseInOverrun_prev (s : State) : (raiseInOverrun s).prev = s.prev := rfl
@[simp] theorem raiseInOverrun_run (s : State) : (raiseInOverrun s).run = s.run := rfl
@[simp] theorem raiseInOverrun_cache (s : State) : (raiseInOverrun s).cache = s.cache := rfl
@[simp] theorem raiseInOverrun_p (s : State) : (raiseInOverrun s).p = s.p := rfl
@[simp] theorem raiseInOverrun_outLen (s : State) : (raiseInOverrun s).outLen = s.outLen := rfl
@[simp] theorem raiseInOverrun_inMem (s : State) : (raiseInOverrun s).inMem = s.inMem := rfl
@[simp] theorem raiseInOverrun_inLen (s : State) : (raiseInOverrun s).inLen = s.inLen := rfl
@[simp] theorem raiseInOverrun_allocOk (s : State) : (raiseInOverrun s).allocOk = s.allocOk := rfl
@[simp] theorem raiseInOverrun_out (s : State) : (raiseInOverrun s).out = s.out := rfl

/-! ### `failWith` -/

@[simp] theorem failWith_cfg (e : ErrorKind) (s : State) : (failWith e s).cfg = s.cfg := rfl
@[simp] theorem failWith_host (e : ErrorKind) (s : State) : (failWith e s).host = s.host := rfl
@[simp] theorem failWith_freeCount (e : ErrorKind) (s : State) : (failWith e s).freeCount = s.freeCount := rfl
@[simp] theorem failWith_phase (e : ErrorKind) (s : State) : (failWith e s).phase = .fail := rfl
@[simp] theorem failWith_err (e : ErrorKind) (s : State) : (failWith e s).err = e := rfl
@[simp] theorem failWith_faultOutOverflow (e : ErrorKind) (s : State) : (failWith e s).faultOutOverflow = s.faultOutOverflow := rfl
@[simp] theorem failWith_faultInOverrun (e : ErrorKind) (s : State) : (failWith e s).faultInOverrun = s.faultInOverrun := rfl
@[simp] theorem failWith_refused (e : ErrorKind) (s : State) : (failWith e s).refused = s.refused := rfl
@[simp] theorem failWith_sel (e : ErrorKind) (s : State) : (failWith e s).sel = s.sel := rfl
@[simp] theorem failWith_present (e : ErrorKind) (s : State) : (failWith e s).present = s.present := rfl
@[simp] theorem failWith_width (e : ErrorKind) (s : State) : (failWith e s).width = s.width := rfl
@[simp] theorem failWith_height (e : ErrorKind) (s : State) : (failWith e s).height = s.height := rfl
@[simp] theorem failWith_channels (e : ErrorKind) (s : State) : (failWith e s).channels = s.channels := rfl
@[simp] theorem failWith_colorspace (e : ErrorKind) (s : State) : (failWith e s).colorspace = s.colorspace := rfl
@[simp] theorem failWith_bound (e : ErrorKind) (s : State) : (failWith e s).bound = s.bound := rfl
@[simp] theorem failWith_pxLen (e : ErrorKind) (s : State) : (failWith e s).pxLen = s.pxLen := rfl
@[simp] theorem failWith_pos (e : ErrorKind) (s : State) : (failWith e s).pos = s.pos := rfl
@[simp] theorem failWith_prev (e : ErrorKind) (s : State) : (failWith e s).prev = s.prev := rfl
@[simp] theorem failWith_run (e : ErrorKind) (s : State) : (failWith e s).run = s.run := rfl
@[simp] theorem failWith_cache (e : ErrorKind) (s : State) : (failWith e s).cache = s.cache := rfl
@[simp] theorem failWith_p (e : ErrorKind) (s : State) : (failWith e s).p = s.p := rfl
@[simp] theorem failWith_outLen (e : ErrorKind) (s : State) : (failWith e s).outLen = s.outLen := rfl
@[simp] theorem failWith_inMem (e : ErrorKind) (s : State) : (failWith e s).inMem = s.inMem := rfl
@[simp] theorem failWith_inLen (e : ErrorKind) (s : State) : (failWith e s).inLen = s.inLen := rfl
@[simp] theorem failWith_allocOk (e : ErrorKind) (s : State) : (failWith e s).allocOk = s.allocOk := rfl
@[simp] theorem failWith_out (e : ErrorKind) (s : State) : (failWith e s).out = s.out := rfl

/-! ### `refuse` -/

@[simp] theorem refuse_cfg (s : State) : (refuse s).cfg = s.cfg := rfl
@[simp] theorem refuse_host (s : State) : (refuse s).host = s.host := rfl
@[simp] theorem refuse_freeCount (s : State) : (refuse s).freeCount = s.freeCount := rfl
@[simp] theorem refuse_phase (s : State) : (refuse s).phase = s.phase := rfl
@[simp] theorem refuse_err (s : State) : (refuse s).err = s.err := rfl
@[simp] theorem refuse_faultOutOverflow (s : State) : (refuse s).faultOutOverflow = s.faultOutOverflow := rfl
@[simp] theorem refuse_faultInOverrun (s : State) : (refuse s).faultInOverrun = s.faultInOverrun := rfl
@[simp] theorem refuse_refused (s : State) : (refuse s).refused = true := rfl
@[simp] theorem refuse_sel (s : State) : (refuse s).sel = s.sel := rfl
@[simp] theorem refuse_present (s : State) : (refuse s).present = s.present := rfl
@[simp] theorem refuse_width (s : State) : (refuse s).width = s.width := rfl
@[simp] theorem refuse_height (s : State) : (refuse s).height = s.height := rfl
@[simp] theorem refuse_channels (s : State) : (refuse s).channels = s.channels := rfl
@[simp] theorem refuse_colorspace (s : State) : (refuse s).colorspace = s.colorspace := rfl
@[simp] theorem refuse_bound (s : State) : (refuse s).bound = s.bound := rfl
@[simp] theorem refuse_pxLen (s : State) : (refuse s).pxLen = s.pxLen := rfl
@[simp] theorem refuse_pos (s : State) : (refuse s).pos = s.pos := rfl
@[simp] theorem refuse_prev (s : State) : (refuse s).prev = s.prev := rfl
@[simp] theorem refuse_run (s : State) : (refuse s).run = s.run := rfl
@[simp] theorem refuse_cache (s : State) : (refuse s).cache = s.cache := rfl
@[simp] theorem refuse_p (s : State) : (refuse s).p = s.p := rfl
@[simp] theorem refuse_outLen (s : State) : (refuse s).outLen = s.outLen := rfl
@[simp] theorem refuse_inMem (s : State) : (refuse s).inMem = s.inMem := rfl
@[simp] theorem refuse_inLen (s : State) : (refuse s).inLen = s.inLen := rfl
@[simp] theorem refuse_allocOk (s : State) : (refuse s).allocOk = s.allocOk := rfl
@[simp] theorem refuse_out (s : State) : (refuse s).out = s.out := rfl

/-! ### `putByte` -/

@[simp] theorem putByte_cfg (v : Byte) (s : State) : (putByte v s).cfg = s.cfg := rfl
@[simp] theorem putByte_host (v : Byte) (s : State) : (putByte v s).host = s.host := rfl
@[simp] theorem putByte_freeCount (v : Byte) (s : State) : (putByte v s).freeCount = s.freeCount := rfl
@[simp] theorem putByte_phase (v : Byte) (s : State) : (putByte v s).phase = s.phase := rfl
@[simp] theorem putByte_err (v : Byte) (s : State) : (putByte v s).err = s.err := rfl
@[simp] theorem putByte_faultOutOverflow (v : Byte) (s : State) : (putByte v s).faultOutOverflow = s.faultOutOverflow := rfl
@[simp] theorem putByte_faultInOverrun (v : Byte) (s : State) : (putByte v s).faultInOverrun = s.faultInOverrun := rfl
@[simp] theorem putByte_refused (v : Byte) (s : State) : (putByte v s).refused = s.refused := rfl
@[simp] theorem putByte_sel (v : Byte) (s : State) : (putByte v s).sel = s.sel := rfl
@[simp] theorem putByte_present (v : Byte) (s : State) : (putByte v s).present = s.present := rfl
@[simp] theorem putByte_width (v : Byte) (s : State) : (putByte v s).width = s.width := rfl
@[simp] theorem putByte_height (v : Byte) (s : State) : (putByte v s).height = s.height := rfl
@[simp] theorem putByte_channels (v : Byte) (s : State) : (putByte v s).channels = s.channels := rfl
@[simp] theorem putByte_colorspace (v : Byte) (s : State) : (putByte v s).colorspace = s.colorspace := rfl
@[simp] theorem putByte_bound (v : Byte) (s : State) : (putByte v s).bound = s.bound := rfl
@[simp] theorem putByte_pxLen (v : Byte) (s : State) : (putByte v s).pxLen = s.pxLen := rfl
@[simp] theorem putByte_pos (v : Byte) (s : State) : (putByte v s).pos = s.pos := rfl
@[simp] theorem putByte_prev (v : Byte) (s : State) : (putByte v s).prev = s.prev := rfl
@[simp] theorem putByte_run (v : Byte) (s : State) : (putByte v s).run = s.run := rfl
@[simp] theorem putByte_cache (v : Byte) (s : State) : (putByte v s).cache = s.cache := rfl
@[simp] theorem putByte_p (v : Byte) (s : State) : (putByte v s).p = s.p + 1#32 := rfl
@[simp] theorem putByte_outLen (v : Byte) (s : State) : (putByte v s).outLen = s.outLen := rfl
@[simp] theorem putByte_inMem (v : Byte) (s : State) : (putByte v s).inMem = s.inMem := rfl
@[simp] theorem putByte_inLen (v : Byte) (s : State) : (putByte v s).inLen = s.inLen := rfl
@[simp] theorem putByte_allocOk (v : Byte) (s : State) : (putByte v s).allocOk = s.allocOk := rfl
@[simp] theorem putByte_out (v : Byte) (s : State) : (putByte v s).out = s.out.map fun m => Memory.write .OUT m s.p.toNat v := rfl

/-! ### `cacheWrite` -/

@[simp] theorem cacheWrite_cfg (b : Bucket) (px : Pixel) (s : State) : (cacheWrite b px s).cfg = s.cfg := rfl
@[simp] theorem cacheWrite_host (b : Bucket) (px : Pixel) (s : State) : (cacheWrite b px s).host = s.host := rfl
@[simp] theorem cacheWrite_freeCount (b : Bucket) (px : Pixel) (s : State) : (cacheWrite b px s).freeCount = s.freeCount := rfl
@[simp] theorem cacheWrite_phase (b : Bucket) (px : Pixel) (s : State) : (cacheWrite b px s).phase = s.phase := rfl
@[simp] theorem cacheWrite_err (b : Bucket) (px : Pixel) (s : State) : (cacheWrite b px s).err = s.err := rfl
@[simp] theorem cacheWrite_faultOutOverflow (b : Bucket) (px : Pixel) (s : State) : (cacheWrite b px s).faultOutOverflow = s.faultOutOverflow := rfl
@[simp] theorem cacheWrite_faultInOverrun (b : Bucket) (px : Pixel) (s : State) : (cacheWrite b px s).faultInOverrun = s.faultInOverrun := rfl
@[simp] theorem cacheWrite_refused (b : Bucket) (px : Pixel) (s : State) : (cacheWrite b px s).refused = s.refused := rfl
@[simp] theorem cacheWrite_sel (b : Bucket) (px : Pixel) (s : State) : (cacheWrite b px s).sel = s.sel := rfl
@[simp] theorem cacheWrite_present (b : Bucket) (px : Pixel) (s : State) : (cacheWrite b px s).present = s.present := rfl
@[simp] theorem cacheWrite_width (b : Bucket) (px : Pixel) (s : State) : (cacheWrite b px s).width = s.width := rfl
@[simp] theorem cacheWrite_height (b : Bucket) (px : Pixel) (s : State) : (cacheWrite b px s).height = s.height := rfl
@[simp] theorem cacheWrite_channels (b : Bucket) (px : Pixel) (s : State) : (cacheWrite b px s).channels = s.channels := rfl
@[simp] theorem cacheWrite_colorspace (b : Bucket) (px : Pixel) (s : State) : (cacheWrite b px s).colorspace = s.colorspace := rfl
@[simp] theorem cacheWrite_bound (b : Bucket) (px : Pixel) (s : State) : (cacheWrite b px s).bound = s.bound := rfl
@[simp] theorem cacheWrite_pxLen (b : Bucket) (px : Pixel) (s : State) : (cacheWrite b px s).pxLen = s.pxLen := rfl
@[simp] theorem cacheWrite_pos (b : Bucket) (px : Pixel) (s : State) : (cacheWrite b px s).pos = s.pos := rfl
@[simp] theorem cacheWrite_prev (b : Bucket) (px : Pixel) (s : State) : (cacheWrite b px s).prev = s.prev := rfl
@[simp] theorem cacheWrite_run (b : Bucket) (px : Pixel) (s : State) : (cacheWrite b px s).run = s.run := rfl
@[simp] theorem cacheWrite_cache (b : Bucket) (px : Pixel) (s : State) : (cacheWrite b px s).cache = s.cache.set b.toNat px := rfl
@[simp] theorem cacheWrite_p (b : Bucket) (px : Pixel) (s : State) : (cacheWrite b px s).p = s.p := rfl
@[simp] theorem cacheWrite_outLen (b : Bucket) (px : Pixel) (s : State) : (cacheWrite b px s).outLen = s.outLen := rfl
@[simp] theorem cacheWrite_inMem (b : Bucket) (px : Pixel) (s : State) : (cacheWrite b px s).inMem = s.inMem := rfl
@[simp] theorem cacheWrite_inLen (b : Bucket) (px : Pixel) (s : State) : (cacheWrite b px s).inLen = s.inLen := rfl
@[simp] theorem cacheWrite_allocOk (b : Bucket) (px : Pixel) (s : State) : (cacheWrite b px s).allocOk = s.allocOk := rfl
@[simp] theorem cacheWrite_out (b : Bucket) (px : Pixel) (s : State) : (cacheWrite b px s).out = s.out := rfl

/-! ### `clearRun` -/

@[simp] theorem clearRun_cfg (s : State) : (clearRun s).cfg = s.cfg := rfl
@[simp] theorem clearRun_host (s : State) : (clearRun s).host = s.host := rfl
@[simp] theorem clearRun_freeCount (s : State) : (clearRun s).freeCount = s.freeCount := rfl
@[simp] theorem clearRun_phase (s : State) : (clearRun s).phase = s.phase := rfl
@[simp] theorem clearRun_err (s : State) : (clearRun s).err = s.err := rfl
@[simp] theorem clearRun_faultOutOverflow (s : State) : (clearRun s).faultOutOverflow = s.faultOutOverflow := rfl
@[simp] theorem clearRun_faultInOverrun (s : State) : (clearRun s).faultInOverrun = s.faultInOverrun := rfl
@[simp] theorem clearRun_refused (s : State) : (clearRun s).refused = s.refused := rfl
@[simp] theorem clearRun_sel (s : State) : (clearRun s).sel = s.sel := rfl
@[simp] theorem clearRun_present (s : State) : (clearRun s).present = s.present := rfl
@[simp] theorem clearRun_width (s : State) : (clearRun s).width = s.width := rfl
@[simp] theorem clearRun_height (s : State) : (clearRun s).height = s.height := rfl
@[simp] theorem clearRun_channels (s : State) : (clearRun s).channels = s.channels := rfl
@[simp] theorem clearRun_colorspace (s : State) : (clearRun s).colorspace = s.colorspace := rfl
@[simp] theorem clearRun_bound (s : State) : (clearRun s).bound = s.bound := rfl
@[simp] theorem clearRun_pxLen (s : State) : (clearRun s).pxLen = s.pxLen := rfl
@[simp] theorem clearRun_pos (s : State) : (clearRun s).pos = s.pos := rfl
@[simp] theorem clearRun_prev (s : State) : (clearRun s).prev = s.prev := rfl
@[simp] theorem clearRun_run (s : State) : (clearRun s).run = 0#6 := rfl
@[simp] theorem clearRun_cache (s : State) : (clearRun s).cache = s.cache := rfl
@[simp] theorem clearRun_p (s : State) : (clearRun s).p = s.p := rfl
@[simp] theorem clearRun_outLen (s : State) : (clearRun s).outLen = s.outLen := rfl
@[simp] theorem clearRun_inMem (s : State) : (clearRun s).inMem = s.inMem := rfl
@[simp] theorem clearRun_inLen (s : State) : (clearRun s).inLen = s.inLen := rfl
@[simp] theorem clearRun_allocOk (s : State) : (clearRun s).allocOk = s.allocOk := rfl
@[simp] theorem clearRun_out (s : State) : (clearRun s).out = s.out := rfl

/-! ### `bumpRun` -/

@[simp] theorem bumpRun_cfg (s : State) : (bumpRun s).cfg = s.cfg := rfl
@[simp] theorem bumpRun_host (s : State) : (bumpRun s).host = s.host := rfl
@[simp] theorem bumpRun_freeCount (s : State) : (bumpRun s).freeCount = s.freeCount := rfl
@[simp] theorem bumpRun_phase (s : State) : (bumpRun s).phase = s.phase := rfl
@[simp] theorem bumpRun_err (s : State) : (bumpRun s).err = s.err := rfl
@[simp] theorem bumpRun_faultOutOverflow (s : State) : (bumpRun s).faultOutOverflow = s.faultOutOverflow := rfl
@[simp] theorem bumpRun_faultInOverrun (s : State) : (bumpRun s).faultInOverrun = s.faultInOverrun := rfl
@[simp] theorem bumpRun_refused (s : State) : (bumpRun s).refused = s.refused := rfl
@[simp] theorem bumpRun_sel (s : State) : (bumpRun s).sel = s.sel := rfl
@[simp] theorem bumpRun_present (s : State) : (bumpRun s).present = s.present := rfl
@[simp] theorem bumpRun_width (s : State) : (bumpRun s).width = s.width := rfl
@[simp] theorem bumpRun_height (s : State) : (bumpRun s).height = s.height := rfl
@[simp] theorem bumpRun_channels (s : State) : (bumpRun s).channels = s.channels := rfl
@[simp] theorem bumpRun_colorspace (s : State) : (bumpRun s).colorspace = s.colorspace := rfl
@[simp] theorem bumpRun_bound (s : State) : (bumpRun s).bound = s.bound := rfl
@[simp] theorem bumpRun_pxLen (s : State) : (bumpRun s).pxLen = s.pxLen := rfl
@[simp] theorem bumpRun_pos (s : State) : (bumpRun s).pos = s.pos := rfl
@[simp] theorem bumpRun_prev (s : State) : (bumpRun s).prev = s.prev := rfl
@[simp] theorem bumpRun_run (s : State) : (bumpRun s).run = s.run + 1#6 := rfl
@[simp] theorem bumpRun_cache (s : State) : (bumpRun s).cache = s.cache := rfl
@[simp] theorem bumpRun_p (s : State) : (bumpRun s).p = s.p := rfl
@[simp] theorem bumpRun_outLen (s : State) : (bumpRun s).outLen = s.outLen := rfl
@[simp] theorem bumpRun_inMem (s : State) : (bumpRun s).inMem = s.inMem := rfl
@[simp] theorem bumpRun_inLen (s : State) : (bumpRun s).inLen = s.inLen := rfl
@[simp] theorem bumpRun_allocOk (s : State) : (bumpRun s).allocOk = s.allocOk := rfl
@[simp] theorem bumpRun_out (s : State) : (bumpRun s).out = s.out := rfl

/-! ### `enterPhase` -/

@[simp] theorem enterPhase_cfg (ph : Phase) (s : State) : (enterPhase ph s).cfg = s.cfg := rfl
@[simp] theorem enterPhase_host (ph : Phase) (s : State) : (enterPhase ph s).host = s.host := rfl
@[simp] theorem enterPhase_freeCount (ph : Phase) (s : State) : (enterPhase ph s).freeCount = s.freeCount := rfl
@[simp] theorem enterPhase_phase (ph : Phase) (s : State) : (enterPhase ph s).phase = ph := rfl
@[simp] theorem enterPhase_err (ph : Phase) (s : State) : (enterPhase ph s).err = s.err := rfl
@[simp] theorem enterPhase_faultOutOverflow (ph : Phase) (s : State) : (enterPhase ph s).faultOutOverflow = s.faultOutOverflow := rfl
@[simp] theorem enterPhase_faultInOverrun (ph : Phase) (s : State) : (enterPhase ph s).faultInOverrun = s.faultInOverrun := rfl
@[simp] theorem enterPhase_refused (ph : Phase) (s : State) : (enterPhase ph s).refused = s.refused := rfl
@[simp] theorem enterPhase_sel (ph : Phase) (s : State) : (enterPhase ph s).sel = s.sel := rfl
@[simp] theorem enterPhase_present (ph : Phase) (s : State) : (enterPhase ph s).present = s.present := rfl
@[simp] theorem enterPhase_width (ph : Phase) (s : State) : (enterPhase ph s).width = s.width := rfl
@[simp] theorem enterPhase_height (ph : Phase) (s : State) : (enterPhase ph s).height = s.height := rfl
@[simp] theorem enterPhase_channels (ph : Phase) (s : State) : (enterPhase ph s).channels = s.channels := rfl
@[simp] theorem enterPhase_colorspace (ph : Phase) (s : State) : (enterPhase ph s).colorspace = s.colorspace := rfl
@[simp] theorem enterPhase_bound (ph : Phase) (s : State) : (enterPhase ph s).bound = s.bound := rfl
@[simp] theorem enterPhase_pxLen (ph : Phase) (s : State) : (enterPhase ph s).pxLen = s.pxLen := rfl
@[simp] theorem enterPhase_pos (ph : Phase) (s : State) : (enterPhase ph s).pos = s.pos := rfl
@[simp] theorem enterPhase_prev (ph : Phase) (s : State) : (enterPhase ph s).prev = s.prev := rfl
@[simp] theorem enterPhase_run (ph : Phase) (s : State) : (enterPhase ph s).run = s.run := rfl
@[simp] theorem enterPhase_cache (ph : Phase) (s : State) : (enterPhase ph s).cache = s.cache := rfl
@[simp] theorem enterPhase_p (ph : Phase) (s : State) : (enterPhase ph s).p = s.p := rfl
@[simp] theorem enterPhase_outLen (ph : Phase) (s : State) : (enterPhase ph s).outLen = s.outLen := rfl
@[simp] theorem enterPhase_inMem (ph : Phase) (s : State) : (enterPhase ph s).inMem = s.inMem := rfl
@[simp] theorem enterPhase_inLen (ph : Phase) (s : State) : (enterPhase ph s).inLen = s.inLen := rfl
@[simp] theorem enterPhase_allocOk (ph : Phase) (s : State) : (enterPhase ph s).allocOk = s.allocOk := rfl
@[simp] theorem enterPhase_out (ph : Phase) (s : State) : (enterPhase ph s).out = s.out := rfl

/-! ### `retire` -/

@[simp] theorem retire_cfg (px : Pixel) (s : State) : (retire px s).cfg = s.cfg := rfl
@[simp] theorem retire_host (px : Pixel) (s : State) : (retire px s).host = s.host := rfl
@[simp] theorem retire_freeCount (px : Pixel) (s : State) : (retire px s).freeCount = s.freeCount := rfl
@[simp] theorem retire_phase (px : Pixel) (s : State) : (retire px s).phase = s.phase := rfl
@[simp] theorem retire_err (px : Pixel) (s : State) : (retire px s).err = s.err := rfl
@[simp] theorem retire_faultOutOverflow (px : Pixel) (s : State) : (retire px s).faultOutOverflow = s.faultOutOverflow := rfl
@[simp] theorem retire_faultInOverrun (px : Pixel) (s : State) : (retire px s).faultInOverrun = s.faultInOverrun := rfl
@[simp] theorem retire_refused (px : Pixel) (s : State) : (retire px s).refused = s.refused := rfl
@[simp] theorem retire_sel (px : Pixel) (s : State) : (retire px s).sel = s.sel := rfl
@[simp] theorem retire_present (px : Pixel) (s : State) : (retire px s).present = s.present := rfl
@[simp] theorem retire_width (px : Pixel) (s : State) : (retire px s).width = s.width := rfl
@[simp] theorem retire_height (px : Pixel) (s : State) : (retire px s).height = s.height := rfl
@[simp] theorem retire_channels (px : Pixel) (s : State) : (retire px s).channels = s.channels := rfl
@[simp] theorem retire_colorspace (px : Pixel) (s : State) : (retire px s).colorspace = s.colorspace := rfl
@[simp] theorem retire_bound (px : Pixel) (s : State) : (retire px s).bound = s.bound := rfl
@[simp] theorem retire_pxLen (px : Pixel) (s : State) : (retire px s).pxLen = s.pxLen := rfl
@[simp] theorem retire_pos (px : Pixel) (s : State) : (retire px s).pos = s.pos + s.channels.setWidth 32 := rfl
@[simp] theorem retire_prev (px : Pixel) (s : State) : (retire px s).prev = px := rfl
@[simp] theorem retire_run (px : Pixel) (s : State) : (retire px s).run = s.run := rfl
@[simp] theorem retire_cache (px : Pixel) (s : State) : (retire px s).cache = s.cache := rfl
@[simp] theorem retire_p (px : Pixel) (s : State) : (retire px s).p = s.p := rfl
@[simp] theorem retire_outLen (px : Pixel) (s : State) : (retire px s).outLen = s.outLen := rfl
@[simp] theorem retire_inMem (px : Pixel) (s : State) : (retire px s).inMem = s.inMem := rfl
@[simp] theorem retire_inLen (px : Pixel) (s : State) : (retire px s).inLen = s.inLen := rfl
@[simp] theorem retire_allocOk (px : Pixel) (s : State) : (retire px s).allocOk = s.allocOk := rfl
@[simp] theorem retire_out (px : Pixel) (s : State) : (retire px s).out = s.out := rfl

/-! ### `finishCall` -/

@[simp] theorem finishCall_cfg (s : State) : (finishCall s).cfg = s.cfg := rfl
@[simp] theorem finishCall_host (s : State) : (finishCall s).host = s.host := rfl
@[simp] theorem finishCall_freeCount (s : State) : (finishCall s).freeCount = s.freeCount := rfl
@[simp] theorem finishCall_phase (s : State) : (finishCall s).phase = .done := rfl
@[simp] theorem finishCall_err (s : State) : (finishCall s).err = s.err := rfl
@[simp] theorem finishCall_faultOutOverflow (s : State) : (finishCall s).faultOutOverflow = s.faultOutOverflow := rfl
@[simp] theorem finishCall_faultInOverrun (s : State) : (finishCall s).faultInOverrun = s.faultInOverrun := rfl
@[simp] theorem finishCall_refused (s : State) : (finishCall s).refused = s.refused := rfl
@[simp] theorem finishCall_sel (s : State) : (finishCall s).sel = s.sel := rfl
@[simp] theorem finishCall_present (s : State) : (finishCall s).present = s.present := rfl
@[simp] theorem finishCall_width (s : State) : (finishCall s).width = s.width := rfl
@[simp] theorem finishCall_height (s : State) : (finishCall s).height = s.height := rfl
@[simp] theorem finishCall_channels (s : State) : (finishCall s).channels = s.channels := rfl
@[simp] theorem finishCall_colorspace (s : State) : (finishCall s).colorspace = s.colorspace := rfl
@[simp] theorem finishCall_bound (s : State) : (finishCall s).bound = s.bound := rfl
@[simp] theorem finishCall_pxLen (s : State) : (finishCall s).pxLen = s.pxLen := rfl
@[simp] theorem finishCall_pos (s : State) : (finishCall s).pos = s.pos := rfl
@[simp] theorem finishCall_prev (s : State) : (finishCall s).prev = s.prev := rfl
@[simp] theorem finishCall_run (s : State) : (finishCall s).run = s.run := rfl
@[simp] theorem finishCall_cache (s : State) : (finishCall s).cache = s.cache := rfl
@[simp] theorem finishCall_p (s : State) : (finishCall s).p = s.p := rfl
@[simp] theorem finishCall_outLen (s : State) : (finishCall s).outLen = s.p := rfl
@[simp] theorem finishCall_inMem (s : State) : (finishCall s).inMem = s.inMem := rfl
@[simp] theorem finishCall_inLen (s : State) : (finishCall s).inLen = s.inLen := rfl
@[simp] theorem finishCall_allocOk (s : State) : (finishCall s).allocOk = s.allocOk := rfl
@[simp] theorem finishCall_out (s : State) : (finishCall s).out = s.out := rfl

/-! ### `allocateOut` -/

@[simp] theorem allocateOut_cfg (s : State) : (allocateOut s).cfg = s.cfg := rfl
@[simp] theorem allocateOut_host (s : State) : (allocateOut s).host = s.host := rfl
@[simp] theorem allocateOut_freeCount (s : State) : (allocateOut s).freeCount = s.freeCount := rfl
@[simp] theorem allocateOut_phase (s : State) : (allocateOut s).phase = s.phase := rfl
@[simp] theorem allocateOut_err (s : State) : (allocateOut s).err = s.err := rfl
@[simp] theorem allocateOut_faultOutOverflow (s : State) : (allocateOut s).faultOutOverflow = s.faultOutOverflow := rfl
@[simp] theorem allocateOut_faultInOverrun (s : State) : (allocateOut s).faultInOverrun = s.faultInOverrun := rfl
@[simp] theorem allocateOut_refused (s : State) : (allocateOut s).refused = s.refused := rfl
@[simp] theorem allocateOut_sel (s : State) : (allocateOut s).sel = s.sel := rfl
@[simp] theorem allocateOut_present (s : State) : (allocateOut s).present = s.present := rfl
@[simp] theorem allocateOut_width (s : State) : (allocateOut s).width = s.width := rfl
@[simp] theorem allocateOut_height (s : State) : (allocateOut s).height = s.height := rfl
@[simp] theorem allocateOut_channels (s : State) : (allocateOut s).channels = s.channels := rfl
@[simp] theorem allocateOut_colorspace (s : State) : (allocateOut s).colorspace = s.colorspace := rfl
@[simp] theorem allocateOut_bound (s : State) : (allocateOut s).bound = s.bound := rfl
@[simp] theorem allocateOut_pxLen (s : State) : (allocateOut s).pxLen = s.pxLen := rfl
@[simp] theorem allocateOut_pos (s : State) : (allocateOut s).pos = s.pos := rfl
@[simp] theorem allocateOut_prev (s : State) : (allocateOut s).prev = s.prev := rfl
@[simp] theorem allocateOut_run (s : State) : (allocateOut s).run = s.run := rfl
@[simp] theorem allocateOut_cache (s : State) : (allocateOut s).cache = s.cache := rfl
@[simp] theorem allocateOut_p (s : State) : (allocateOut s).p = s.p := rfl
@[simp] theorem allocateOut_outLen (s : State) : (allocateOut s).outLen = s.outLen := rfl
@[simp] theorem allocateOut_inMem (s : State) : (allocateOut s).inMem = s.inMem := rfl
@[simp] theorem allocateOut_inLen (s : State) : (allocateOut s).inLen = s.inLen := rfl
@[simp] theorem allocateOut_allocOk (s : State) : (allocateOut s).allocOk = s.allocOk := rfl
@[simp] theorem allocateOut_out (s : State) : (allocateOut s).out = some [] := rfl

/-! ### `latchCommand` -/

@[simp] theorem latchCommand_cfg (cmd : StartCmd) (s : State) : (latchCommand cmd s).cfg = s.cfg := rfl
@[simp] theorem latchCommand_host (cmd : StartCmd) (s : State) : (latchCommand cmd s).host = s.host := rfl
@[simp] theorem latchCommand_freeCount (cmd : StartCmd) (s : State) : (latchCommand cmd s).freeCount = s.freeCount := rfl
@[simp] theorem latchCommand_phase (cmd : StartCmd) (s : State) : (latchCommand cmd s).phase = s.phase := rfl
@[simp] theorem latchCommand_err (cmd : StartCmd) (s : State) : (latchCommand cmd s).err = s.err := rfl
@[simp] theorem latchCommand_faultOutOverflow (cmd : StartCmd) (s : State) : (latchCommand cmd s).faultOutOverflow = s.faultOutOverflow := rfl
@[simp] theorem latchCommand_faultInOverrun (cmd : StartCmd) (s : State) : (latchCommand cmd s).faultInOverrun = s.faultInOverrun := rfl
@[simp] theorem latchCommand_refused (cmd : StartCmd) (s : State) : (latchCommand cmd s).refused = s.refused := rfl
@[simp] theorem latchCommand_sel (cmd : StartCmd) (s : State) : (latchCommand cmd s).sel = cmd.sel := rfl
@[simp] theorem latchCommand_present (cmd : StartCmd) (s : State) : (latchCommand cmd s).present = presenceOf cmd := rfl
@[simp] theorem latchCommand_width (cmd : StartCmd) (s : State) : (latchCommand cmd s).width = if cmd.descPresent then cmd.width else Config.freeWord s.freeCount := rfl
@[simp] theorem latchCommand_height (cmd : StartCmd) (s : State) : (latchCommand cmd s).height = if cmd.descPresent then cmd.height else Config.freeWord (s.freeCount + 1) := rfl
@[simp] theorem latchCommand_channels (cmd : StartCmd) (s : State) : (latchCommand cmd s).channels = if cmd.descPresent then cmd.channels else Config.freeByte s.freeCount := rfl
@[simp] theorem latchCommand_colorspace (cmd : StartCmd) (s : State) : (latchCommand cmd s).colorspace = if cmd.descPresent then cmd.colorspace else Config.freeByte (s.freeCount + 1) := rfl
@[simp] theorem latchCommand_bound (cmd : StartCmd) (s : State) : (latchCommand cmd s).bound = s.bound := rfl
@[simp] theorem latchCommand_pxLen (cmd : StartCmd) (s : State) : (latchCommand cmd s).pxLen = s.pxLen := rfl
@[simp] theorem latchCommand_pos (cmd : StartCmd) (s : State) : (latchCommand cmd s).pos = s.pos := rfl
@[simp] theorem latchCommand_prev (cmd : StartCmd) (s : State) : (latchCommand cmd s).prev = s.prev := rfl
@[simp] theorem latchCommand_run (cmd : StartCmd) (s : State) : (latchCommand cmd s).run = s.run := rfl
@[simp] theorem latchCommand_cache (cmd : StartCmd) (s : State) : (latchCommand cmd s).cache = s.cache := rfl
@[simp] theorem latchCommand_p (cmd : StartCmd) (s : State) : (latchCommand cmd s).p = s.p := rfl
@[simp] theorem latchCommand_outLen (cmd : StartCmd) (s : State) : (latchCommand cmd s).outLen = s.outLen := rfl
@[simp] theorem latchCommand_inMem (cmd : StartCmd) (s : State) : (latchCommand cmd s).inMem = Memory.ofBytes .IN 0 cmd.buffer := rfl
@[simp] theorem latchCommand_inLen (cmd : StartCmd) (s : State) : (latchCommand cmd s).inLen = cmd.buffer.length := rfl
@[simp] theorem latchCommand_allocOk (cmd : StartCmd) (s : State) : (latchCommand cmd s).allocOk = cmd.allocOk := rfl
@[simp] theorem latchCommand_out (cmd : StartCmd) (s : State) : (latchCommand cmd s).out = s.out := rfl

/-! ### `seedCall` -/

@[simp] theorem seedCall_cfg (s : State) : (seedCall s).cfg = s.cfg := rfl
@[simp] theorem seedCall_host (s : State) : (seedCall s).host = s.host := rfl
@[simp] theorem seedCall_freeCount (s : State) : (seedCall s).freeCount = s.freeCount + 5 := rfl
@[simp] theorem seedCall_phase (s : State) : (seedCall s).phase = .validate := rfl
@[simp] theorem seedCall_err (s : State) : (seedCall s).err = .none := rfl
@[simp] theorem seedCall_faultOutOverflow (s : State) : (seedCall s).faultOutOverflow = s.faultOutOverflow := rfl
@[simp] theorem seedCall_faultInOverrun (s : State) : (seedCall s).faultInOverrun = s.faultInOverrun := rfl
@[simp] theorem seedCall_refused (s : State) : (seedCall s).refused = s.refused := rfl
@[simp] theorem seedCall_sel (s : State) : (seedCall s).sel = s.sel := rfl
@[simp] theorem seedCall_present (s : State) : (seedCall s).present = s.present := rfl
@[simp] theorem seedCall_width (s : State) : (seedCall s).width = s.width := rfl
@[simp] theorem seedCall_height (s : State) : (seedCall s).height = s.height := rfl
@[simp] theorem seedCall_channels (s : State) : (seedCall s).channels = s.channels := rfl
@[simp] theorem seedCall_colorspace (s : State) : (seedCall s).colorspace = s.colorspace := rfl
@[simp] theorem seedCall_bound (s : State) : (seedCall s).bound = Config.freeWord (s.freeCount + 2) := rfl
@[simp] theorem seedCall_pxLen (s : State) : (seedCall s).pxLen = Config.freeWord (s.freeCount + 3) := rfl
@[simp] theorem seedCall_pos (s : State) : (seedCall s).pos = 0#32 := rfl
@[simp] theorem seedCall_prev (s : State) : (seedCall s).prev = seedPixel := rfl
@[simp] theorem seedCall_run (s : State) : (seedCall s).run = 0#6 := rfl
@[simp] theorem seedCall_cache (s : State) : (seedCall s).cache = Vector.replicate 64 zeroPixel := rfl
@[simp] theorem seedCall_p (s : State) : (seedCall s).p = 0#32 := rfl
@[simp] theorem seedCall_outLen (s : State) : (seedCall s).outLen = Config.freeWord (s.freeCount + 4) := rfl
@[simp] theorem seedCall_inMem (s : State) : (seedCall s).inMem = s.inMem := rfl
@[simp] theorem seedCall_inLen (s : State) : (seedCall s).inLen = s.inLen := rfl
@[simp] theorem seedCall_allocOk (s : State) : (seedCall s).allocOk = s.allocOk := rfl
@[simp] theorem seedCall_out (s : State) : (seedCall s).out = none := rfl

/-! ### `computeSizes` -/

@[simp] theorem computeSizes_cfg (s : State) : (computeSizes s).cfg = s.cfg := rfl
@[simp] theorem computeSizes_host (s : State) : (computeSizes s).host = s.host := rfl
@[simp] theorem computeSizes_freeCount (s : State) : (computeSizes s).freeCount = s.freeCount := rfl
@[simp] theorem computeSizes_phase (s : State) : (computeSizes s).phase = s.phase := rfl
@[simp] theorem computeSizes_err (s : State) : (computeSizes s).err = s.err := rfl
@[simp] theorem computeSizes_faultOutOverflow (s : State) : (computeSizes s).faultOutOverflow = s.faultOutOverflow := rfl
@[simp] theorem computeSizes_faultInOverrun (s : State) : (computeSizes s).faultInOverrun = s.faultInOverrun := rfl
@[simp] theorem computeSizes_refused (s : State) : (computeSizes s).refused = s.refused := rfl
@[simp] theorem computeSizes_sel (s : State) : (computeSizes s).sel = s.sel := rfl
@[simp] theorem computeSizes_present (s : State) : (computeSizes s).present = s.present := rfl
@[simp] theorem computeSizes_width (s : State) : (computeSizes s).width = s.width := rfl
@[simp] theorem computeSizes_height (s : State) : (computeSizes s).height = s.height := rfl
@[simp] theorem computeSizes_channels (s : State) : (computeSizes s).channels = s.channels := rfl
@[simp] theorem computeSizes_colorspace (s : State) : (computeSizes s).colorspace = s.colorspace := rfl
@[simp] theorem computeSizes_bound (s : State) : (computeSizes s).bound = s.width * s.height * (s.channels.setWidth 32 + 1#32) + 14#32 + 8#32 := rfl
@[simp] theorem computeSizes_pxLen (s : State) : (computeSizes s).pxLen = s.width * s.height * s.channels.setWidth 32 := rfl
@[simp] theorem computeSizes_pos (s : State) : (computeSizes s).pos = s.pos := rfl
@[simp] theorem computeSizes_prev (s : State) : (computeSizes s).prev = s.prev := rfl
@[simp] theorem computeSizes_run (s : State) : (computeSizes s).run = s.run := rfl
@[simp] theorem computeSizes_cache (s : State) : (computeSizes s).cache = s.cache := rfl
@[simp] theorem computeSizes_p (s : State) : (computeSizes s).p = s.p := rfl
@[simp] theorem computeSizes_outLen (s : State) : (computeSizes s).outLen = s.outLen := rfl
@[simp] theorem computeSizes_inMem (s : State) : (computeSizes s).inMem = s.inMem := rfl
@[simp] theorem computeSizes_inLen (s : State) : (computeSizes s).inLen = s.inLen := rfl
@[simp] theorem computeSizes_allocOk (s : State) : (computeSizes s).allocOk = s.allocOk := rfl
@[simp] theorem computeSizes_out (s : State) : (computeSizes s).out = s.out := rfl

end Sys2Proof.Machine
end

