-- ==== Sys2Proof/Laws/Emit.lean ====
section
/-! SUPPORT. Emit and one unit's write: everything they can do, said once. -/
namespace Sys2Proof.Machine

/-! ### `emitAll` -/

/-- Emit touches OUT, P and FAULT.OUT_OVERFLOW only. -/
theorem emitAll_frame (vs : List Byte) (s : State) :
    emitAll vs s = { s with
      out := (emitAll vs s).out, p := (emitAll vs s).p, faultOutOverflow := (emitAll vs s).faultOutOverflow } := by
  induction vs generalizing s with
  | nil => rfl
  | cons v vs ih =>
    unfold emitAll
    split
    · exact ih (putByte v s)
    · rfl

@[simp] theorem emitAll_cfg (vs : List Byte) (s : State) : (emitAll vs s).cfg = s.cfg :=
  (congrArg State.cfg (emitAll_frame vs s) :)

@[simp] theorem emitAll_host (vs : List Byte) (s : State) : (emitAll vs s).host = s.host :=
  (congrArg State.host (emitAll_frame vs s) :)

@[simp] theorem emitAll_freeCount (vs : List Byte) (s : State) : (emitAll vs s).freeCount = s.freeCount :=
  (congrArg State.freeCount (emitAll_frame vs s) :)

@[simp] theorem emitAll_phase (vs : List Byte) (s : State) : (emitAll vs s).phase = s.phase :=
  (congrArg State.phase (emitAll_frame vs s) :)

@[simp] theorem emitAll_err (vs : List Byte) (s : State) : (emitAll vs s).err = s.err :=
  (congrArg State.err (emitAll_frame vs s) :)

@[simp] theorem emitAll_faultInOverrun (vs : List Byte) (s : State) : (emitAll vs s).faultInOverrun = s.faultInOverrun :=
  (congrArg State.faultInOverrun (emitAll_frame vs s) :)

@[simp] theorem emitAll_refused (vs : List Byte) (s : State) : (emitAll vs s).refused = s.refused :=
  (congrArg State.refused (emitAll_frame vs s) :)

@[simp] theorem emitAll_sel (vs : List Byte) (s : State) : (emitAll vs s).sel = s.sel :=
  (congrArg State.sel (emitAll_frame vs s) :)

@[simp] theorem emitAll_present (vs : List Byte) (s : State) : (emitAll vs s).present = s.present :=
  (congrArg State.present (emitAll_frame vs s) :)

@[simp] theorem emitAll_width (vs : List Byte) (s : State) : (emitAll vs s).width = s.width :=
  (congrArg State.width (emitAll_frame vs s) :)

@[simp] theorem emitAll_height (vs : List Byte) (s : State) : (emitAll vs s).height = s.height :=
  (congrArg State.height (emitAll_frame vs s) :)

@[simp] theorem emitAll_channels (vs : List Byte) (s : State) : (emitAll vs s).channels = s.channels :=
  (congrArg State.channels (emitAll_frame vs s) :)

@[simp] theorem emitAll_colorspace (vs : List Byte) (s : State) : (emitAll vs s).colorspace = s.colorspace :=
  (congrArg State.colorspace (emitAll_frame vs s) :)

@[simp] theorem emitAll_bound (vs : List Byte) (s : State) : (emitAll vs s).bound = s.bound :=
  (congrArg State.bound (emitAll_frame vs s) :)

@[simp] theorem emitAll_pxLen (vs : List Byte) (s : State) : (emitAll vs s).pxLen = s.pxLen :=
  (congrArg State.pxLen (emitAll_frame vs s) :)

@[simp] theorem emitAll_pos (vs : List Byte) (s : State) : (emitAll vs s).pos = s.pos :=
  (congrArg State.pos (emitAll_frame vs s) :)

@[simp] theorem emitAll_prev (vs : List Byte) (s : State) : (emitAll vs s).prev = s.prev :=
  (congrArg State.prev (emitAll_frame vs s) :)

@[simp] theorem emitAll_run (vs : List Byte) (s : State) : (emitAll vs s).run = s.run :=
  (congrArg State.run (emitAll_frame vs s) :)

@[simp] theorem emitAll_cache (vs : List Byte) (s : State) : (emitAll vs s).cache = s.cache :=
  (congrArg State.cache (emitAll_frame vs s) :)

@[simp] theorem emitAll_outLen (vs : List Byte) (s : State) : (emitAll vs s).outLen = s.outLen :=
  (congrArg State.outLen (emitAll_frame vs s) :)

@[simp] theorem emitAll_inMem (vs : List Byte) (s : State) : (emitAll vs s).inMem = s.inMem :=
  (congrArg State.inMem (emitAll_frame vs s) :)

@[simp] theorem emitAll_inLen (vs : List Byte) (s : State) : (emitAll vs s).inLen = s.inLen :=
  (congrArg State.inLen (emitAll_frame vs s) :)

@[simp] theorem emitAll_allocOk (vs : List Byte) (s : State) : (emitAll vs s).allocOk = s.allocOk :=
  (congrArg State.allocOk (emitAll_frame vs s) :)

/-- The bytes fit: all are stored, the cursor moves past them, nothing else changes (R54). -/
theorem emitAll_of_fits (vs : List Byte) (s : State) (h : s.p.toNat + vs.length ≤ s.bound.toNat) :
    emitAll vs s = { s with
      out := s.out.map fun m => Memory.writeList .OUT m s.p.toNat vs, p := s.p + BitVec.ofNat 32 vs.length } := by
  induction vs generalizing s with
  | nil =>
    obtain ⟨⟩ := s
    simp [emitAll, Memory.writeList]
  | cons v vs ih =>
    have hb := s.bound.isLt
    simp only [List.length_cons] at h
    have hp : (putByte v s).p.toNat = s.p.toNat + 1 := by
      rw [putByte_p, BitVec.toNat_add]
      simp
      omega
    have hlt : s.p.toNat < s.bound.toNat := by omega
    rw [emitAll, if_pos hlt, ih (putByte v s) (by rw [hp, putByte_bound]; omega), hp]
    simp only [putByte, Option.map_map, List.length_cons]
    congr 1
    rw [BitVec.add_assoc]
    congr 1
    rw [BitVec.ofNat_add, BitVec.add_comm]

/-- The bytes do not fit: those below BOUND are stored, the cursor stands where the failing Emit found it, OUT_OVERFLOW is
recorded, nothing else changes (R54, R203). -/
theorem emitAll_of_overflow (vs : List Byte) (s : State) (hne : vs ≠ [])
    (h : s.bound.toNat < s.p.toNat + vs.length) :
    emitAll vs s = { s with
      out := s.out.map fun m => Memory.writeList .OUT m s.p.toNat (vs.take (s.bound.toNat - s.p.toNat)),
      p := s.p + BitVec.ofNat 32 (s.bound.toNat - s.p.toNat), faultOutOverflow := true } := by
  induction vs generalizing s with
  | nil => exact absurd rfl hne
  | cons v vs ih =>
    have hb := s.bound.isLt
    simp only [List.length_cons] at h
    by_cases hlt : s.p.toNat < s.bound.toNat
    · have hp : (putByte v s).p.toNat = s.p.toNat + 1 := by
        rw [putByte_p, BitVec.toNat_add]
        simp
        omega
      have hvs : vs ≠ [] := by
        rintro rfl
        simp at h
        omega
      obtain ⟨k, hk⟩ : ∃ k, s.bound.toNat - s.p.toNat = k + 1 := ⟨s.bound.toNat - s.p.toNat - 1, by omega⟩
      rw [emitAll, if_pos hlt, ih (putByte v s) hvs (by rw [hp, putByte_bound]; omega), hp, putByte_bound, hk,
        show s.bound.toNat - (s.p.toNat + 1) = k by omega]
      simp only [putByte, Option.map_map]
      congr 1
      rw [BitVec.add_assoc]
      congr 1
      rw [BitVec.ofNat_add, BitVec.add_comm]
    · rw [emitAll, if_neg hlt, show s.bound.toNat - s.p.toNat = 0 by omega]
      obtain ⟨⟩ := s
      simp [raiseOutOverflow, Memory.writeList]

/-! ### `writeUnit` -/

/-- The state a unit may be written in: no mark set, OUT present. -/
theorem writeUnit_of_ready (bytes : List Byte) (after : State → State) (s : State)
    (hf : faulted s = false) (hr : s.refused = false) (ho : s.out.isSome = true) :
    writeUnit bytes after s =
      .next (if faulted (emitAll bytes s) then emitAll bytes s else after (emitAll bytes s)) := by
  have hn : s.out.isNone = false := by simpa using ho
  simp [writeUnit, hf, hr, hn]

/-- A unit that answers a next state was written in a state with no mark and with OUT present. -/
theorem writeUnit_next (bytes : List Byte) (after : State → State) (s t : State) (h : writeUnit bytes after s = .next t) :
    faulted s = false ∧ s.refused = false ∧ s.out.isSome = true ∧
      t = (if faulted (emitAll bytes s) then emitAll bytes s else after (emitAll bytes s)) := by
  unfold writeUnit at h
  split at h
  · cases h
  · split at h
    · cases h
    · split at h
      · cases h
      · rename_i hf hr ho
        injection h with h
        refine ⟨by simpa using hf, by simpa using hr, ?_, h.symm⟩
        cases hs : s.out <;> simp [hs] at ho ⊢

/-- The unit fits: its bytes are stored, the cursor moves past them, and `after` follows. -/
theorem writeUnit_of_fits (bytes : List Byte) (after : State → State) (s : State) (m : Memory)
    (hf : faulted s = false) (hr : s.refused = false) (ho : s.out = some m)
    (h : s.p.toNat + bytes.length ≤ s.bound.toNat) :
    writeUnit bytes after s = .next (after { s with
      out := some (Memory.writeList .OUT m s.p.toNat bytes), p := s.p + BitVec.ofNat 32 bytes.length }) := by
  rw [writeUnit_of_ready bytes after s hf hr (by simp [ho]), emitAll_of_fits bytes s h, if_neg]
  · simp [ho]
  · simpa [faulted] using hf

/-- The unit does not fit: the bytes below BOUND are stored, OUT_OVERFLOW is recorded, and nothing follows (R203). -/
theorem writeUnit_of_overflow (bytes : List Byte) (after : State → State) (s : State) (m : Memory)
    (hf : faulted s = false) (hr : s.refused = false) (ho : s.out = some m) (hne : bytes ≠ [])
    (h : s.bound.toNat < s.p.toNat + bytes.length) :
    writeUnit bytes after s = .next { s with
      out := some (Memory.writeList .OUT m s.p.toNat (bytes.take (s.bound.toNat - s.p.toNat))),
      p := s.p + BitVec.ofNat 32 (s.bound.toNat - s.p.toNat), faultOutOverflow := true } := by
  rw [writeUnit_of_ready bytes after s hf hr (by simp [ho]), emitAll_of_overflow bytes s hne h, if_pos]
  · simp [ho]
  · simp [faulted]

end Sys2Proof.Machine
end

