-- ==== Sys2Proof/Laws/PerInstr.lean ====
section
/-! SUPPORT. The families of statements for every unit, one lemma per constructor. -/
namespace Sys2Proof.Laws.EncodedLength

/-- The encoding of a unit has the unit's length, under every setting of the parameters (R70, R75, R154). -/
def Statement (i : Instr) : Prop :=
  ∀ (c : Config) (shortLit : Bool), (encode c shortLit i).length = unitLength shortLit i

theorem index (bucket : Bucket) : Statement (.index bucket) := fun _ _ => rfl

theorem diff (dr dg db : Int) : Statement (.diff dr dg db) := fun _ _ => rfl

theorem luma (dg drg dbg : Int) : Statement (.luma dg drg dbg) := fun _ _ => rfl

theorem run (n : BitVec 6) : Statement (.run n) := fun _ _ => rfl

theorem rgb (r g b : Byte) : Statement (.rgb r g b) := fun _ _ => rfl

theorem rgba (r g b a : Byte) : Statement (.rgba r g b a) := fun _ shortLit => by cases shortLit <;> rfl

theorem header (width height : Word) (channels colorspace : Byte) : Statement (.header width height channels colorspace) :=
  fun _ _ => rfl

theorem endMarker : Statement .endMarker := fun _ _ => rfl

end Sys2Proof.Laws.EncodedLength
end

