-- ==== Sys2Proof/Laws/Units.lean ====
section
/-! SUPPORT. One unit, and a list of units: everything `exec` and `runUnitsThen` can do, said once. -/
namespace Sys2Proof.Machine

/-- What a unit does after its bytes: RUN clears the run counter (R152), no other does anything. -/
def unitAfter (i : Instr) (s : State) : State :=
  match i with
  | .run _ => clearRun s
  | .index _ => s
  | .diff _ _ _ => s
  | .luma _ _ _ => s
  | .rgb _ _ _ => s
  | .rgba _ _ _ _ => s
  | .header _ _ _ _ => s
  | .endMarker => s

/-- Every unit writes its encoding. -/
theorem exec_eq_writeUnit (i : Instr) (s : State) :
    exec i s = writeUnit (encode s.cfg (shortLiteral s) i) (unitAfter i) s := by
  cases i <;> rfl

theorem encode_length (c : Config) (shortLit : Bool) (i : Instr) :
    (encode c shortLit i).length = unitLength shortLit i := by
  cases i <;> cases shortLit <;> rfl

theorem unitLength_pos (shortLit : Bool) (i : Instr) : 0 < unitLength shortLit i := by
  cases i <;> cases shortLit <;> simp [unitLength]

theorem encode_ne_nil (c : Config) (shortLit : Bool) (i : Instr) : encode c shortLit i ≠ [] := by
  intro h
  have := unitLength_pos shortLit i
  rw [← encode_length c, h] at this
  simp at this

/-- The state after `bytes` were written in full. -/
def stored (s : State) (m : Memory) (bytes : List Byte) : State :=
  { s with out := some (Memory.writeList .OUT m s.p.toNat bytes), p := s.p + BitVec.ofNat 32 bytes.length }

/-- The state after an Emit of `bytes` found P at BOUND. -/
def overflowed (s : State) (m : Memory) (bytes : List Byte) : State :=
  { s with
    out := some (Memory.writeList .OUT m s.p.toNat (bytes.take (s.bound.toNat - s.p.toNat)))
    p := s.p + BitVec.ofNat 32 (s.bound.toNat - s.p.toNat)
    faultOutOverflow := true }

/-- A unit that answers a next state: it fits, or it overflows. -/
theorem exec_next (i : Instr) (s t : State) (h : exec i s = .next t) :
    ∃ m, Ready s m ∧
      ((s.p.toNat + unitLength (shortLiteral s) i ≤ s.bound.toNat ∧
          t = unitAfter i (stored s m (encode s.cfg (shortLiteral s) i))) ∨
       (s.bound.toNat < s.p.toNat + unitLength (shortLiteral s) i ∧
          t = overflowed s m (encode s.cfg (shortLiteral s) i))) := by
  rw [exec_eq_writeUnit] at h
  obtain ⟨hf, hr, ho, -⟩ := writeUnit_next _ _ _ _ h
  obtain ⟨m, hm⟩ := Option.isSome_iff_exists.mp ho
  refine ⟨m, ⟨hf, hr, hm⟩, ?_⟩
  by_cases hfit : s.p.toNat + unitLength (shortLiteral s) i ≤ s.bound.toNat
  · refine Or.inl ⟨hfit, ?_⟩
    rw [writeUnit_of_fits _ _ s m hf hr hm (by rw [encode_length]; exact hfit)] at h
    injection h with h
    exact h.symm
  · refine Or.inr ⟨by omega, ?_⟩
    rw [writeUnit_of_overflow _ _ s m hf hr hm (encode_ne_nil _ _ _) (by rw [encode_length]; omega)] at h
    injection h with h
    exact h.symm

/-- In a ready state a unit that fits is stored. -/
theorem exec_of_fits (i : Instr) (s : State) (m : Memory) (hr : Ready s m)
    (h : s.p.toNat + unitLength (shortLiteral s) i ≤ s.bound.toNat) :
    exec i s = .next (unitAfter i (stored s m (encode s.cfg (shortLiteral s) i))) := by
  rw [exec_eq_writeUnit, writeUnit_of_fits _ _ s m hr.1 hr.2.1 hr.2.2 (by rw [encode_length]; exact h)]
  rfl

/-- In a ready state a unit that does not fit records OUT_OVERFLOW. -/
theorem exec_of_overflow (i : Instr) (s : State) (m : Memory) (hr : Ready s m)
    (h : s.bound.toNat < s.p.toNat + unitLength (shortLiteral s) i) :
    exec i s = .next (overflowed s m (encode s.cfg (shortLiteral s) i)) := by
  rw [exec_eq_writeUnit,
    writeUnit_of_overflow _ _ s m hr.1 hr.2.1 hr.2.2 (encode_ne_nil _ _ _) (by rw [encode_length]; exact h)]
  rfl

theorem faulted_unitAfter (i : Instr) (s : State) : faulted (unitAfter i s) = faulted s := by
  cases i <;> rfl

theorem faulted_stored (s : State) (m : Memory) (bytes : List Byte) : faulted (stored s m bytes) = faulted s := rfl

theorem faulted_overflowed (s : State) (m : Memory) (bytes : List Byte) : faulted (overflowed s m bytes) = true := rfl

theorem runUnitsThen_nil (rest : State → State) (s : State) (h : faulted s = false) :
    runUnitsThen [] rest s = .next (rest s) := by
  simp [runUnitsThen, runUnits, h]

/-- Several units: the first runs, and unless it faulted the others follow. -/
theorem runUnitsThen_cons (i : Instr) (is : List Instr) (rest : State → State) (s : State) :
    runUnitsThen (i :: is) rest s =
      match exec i s with
      | .next t => if faulted t then .next t else runUnitsThen is rest t
      | .fault f => .fault f
      | .refused r => .refused r := by
  unfold runUnitsThen
  rw [runUnits]
  cases h : exec i s with
  | next t => cases ht : faulted t <;> simp [ht]
  | fault f => rfl
  | refused r => rfl

/-- The same, for a step that answers a next state. -/
theorem runUnitsThen_cons_next (i : Instr) (is : List Instr) (rest : State → State) (s t : State)
    (h : runUnitsThen (i :: is) rest s = .next t) :
    ∃ m, Ready s m ∧
      ((s.p.toNat + unitLength (shortLiteral s) i ≤ s.bound.toNat ∧
          runUnitsThen is rest (unitAfter i (stored s m (encode s.cfg (shortLiteral s) i))) = .next t) ∨
       (s.bound.toNat < s.p.toNat + unitLength (shortLiteral s) i ∧
          t = overflowed s m (encode s.cfg (shortLiteral s) i))) := by
  rw [runUnitsThen_cons] at h
  cases he : exec i s with
  | next u =>
    rw [he] at h
    obtain ⟨m, hr, ⟨hfit, hu⟩ | ⟨hov, hu⟩⟩ := exec_next i s u he
    · have hn : faulted u = false := by rw [hu, faulted_unitAfter, faulted_stored]; exact hr.1
      simp only [hn, Bool.false_eq_true, if_false] at h
      exact ⟨m, hr, Or.inl ⟨hfit, hu ▸ h⟩⟩
    · have hn : faulted u = true := by rw [hu]; rfl
      simp only [hn, if_true] at h
      injection h with h
      exact ⟨m, hr, Or.inr ⟨hov, by rw [← h, hu]⟩⟩
  | fault f => rw [he] at h; cases h
  | refused r => rw [he] at h; cases h

end Sys2Proof.Machine
end

