-- ==== Sys2Proof/Laws/Step.lean ====
section
/-! SUPPORT. Everything a step can do, said once; each invariant is a case split over it. -/
namespace Sys2Proof.Machine

theorem step_of_silent (s : State) (moves : List HostMove) (h : Silent s moves) :
    step s = advance { s with host := moves } := by
  rcases h with h | ⟨h, rfl⟩
  · simp [step, boundary, h]
  · cases s
    simp_all [step, boundary]

theorem step_of_start (s : State) (cmd : StartCmd) (moves : List HostMove) (h : s.host = .start cmd :: moves) :
    step s = .next (startCommand cmd { s with host := moves }) := by
  simp [step, boundary, h]

/-- A step is a START presented or a silent boundary. -/
theorem step_cases (s t : State) (h : step s = .next t) :
    (∃ cmd moves, s.host = .start cmd :: moves ∧ t = startCommand cmd { s with host := moves }) ∨
    (∃ moves, Silent s moves ∧ advance { s with host := moves } = .next t) := by
  cases hh : s.host with
  | nil =>
    refine Or.inr ⟨[], Or.inr ⟨hh, rfl⟩, ?_⟩
    rwa [← step_of_silent s [] (Or.inr ⟨hh, rfl⟩)]
  | cons move moves =>
    cases move with
    | quiet =>
      refine Or.inr ⟨moves, Or.inl hh, ?_⟩
      rwa [← step_of_silent s moves (Or.inl hh)]
    | start cmd =>
      refine Or.inl ⟨cmd, moves, rfl, ?_⟩
      rw [step_of_start s cmd moves hh] at h
      injection h with h
      exact h.symm

/-- START is accepted or refused. -/
theorem startCommand_cases (cmd : StartCmd) (s : State) :
    (accepts s = true ∧ legalSel cmd.sel = true ∧ startCommand cmd s = seedCall (latchCommand cmd s)) ∨
    ((accepts s = false ∨ legalSel cmd.sel = false) ∧ startCommand cmd s = refuse s) := by
  unfold startCommand
  cases accepts s <;> cases legalSel cmd.sel <;> simp

theorem accepts_iff (s : State) : accepts s = true ↔ quiescent s.phase = true ∧ Unmarked s := by
  simp [accepts, Unmarked, and_assoc]

/-- What the block's own step does, by phase. -/
theorem advance_cases (s t : State) (h : advance s = .next t) :
    Unmarked s ∧
    ((quiescent s.phase = true ∧ t = s) ∨
     (s.phase = .validate ∧ t = validateStep s) ∨
     (s.phase = .alloc ∧ t = allocStep s) ∨
     (s.phase = .header ∧ runUnitsThen [headerUnit s] (enterPhase .pixels) s = .next t) ∨
     (s.phase = .pixels ∧ s.pos = s.pxLen ∧ t = enterPhase .footer s) ∨
     (s.phase = .pixels ∧ s.pos.toNat < s.pxLen.toNat ∧ pixelStep s = .next t) ∨
     (s.phase = .footer ∧ runUnitsThen [.endMarker] finishCall s = .next t)) := by
  unfold advance at h
  split at h
  · cases h
  · split at h
    · cases h
    · rename_i hf hr
      refine ⟨⟨by simpa using hf, by simpa using hr⟩, ?_⟩
      cases hp : s.phase with
      | idle => simp only [hp] at h; injection h with h; exact Or.inl ⟨rfl, h.symm⟩
      | done => simp only [hp] at h; injection h with h; exact Or.inl ⟨rfl, h.symm⟩
      | fail => simp only [hp] at h; injection h with h; exact Or.inl ⟨rfl, h.symm⟩
      | validate => simp only [hp] at h; injection h with h; exact Or.inr (Or.inl ⟨rfl, h.symm⟩)
      | alloc => simp only [hp] at h; injection h with h; exact Or.inr (Or.inr (Or.inl ⟨rfl, h.symm⟩))
      | header => simp only [hp] at h; exact Or.inr (Or.inr (Or.inr (Or.inl ⟨rfl, h⟩)))
      | footer => simp only [hp] at h; exact Or.inr (Or.inr (Or.inr (Or.inr (Or.inr (Or.inr ⟨rfl, h⟩)))))
      | pixels =>
        simp only [hp, pixelsStep] at h
        split at h
        · rename_i he
          injection h with h
          exact Or.inr (Or.inr (Or.inr (Or.inr (Or.inl ⟨rfl, he, h.symm⟩))))
        · split at h
          · rename_i hlt
            exact Or.inr (Or.inr (Or.inr (Or.inr (Or.inr (Or.inl ⟨rfl, hlt, h⟩)))))
          · cases h

/-- What a pixel step does: the fetch fails, or the strategy's units run. -/
theorem pixelStep_cases (s t : State) (h : pixelStep s = .next t) :
    (fetchPixel s s.pos = none ∧ t = raiseInOverrun s) ∨
    (∃ px, fetchPixel s s.pos = some px ∧
      ((s.sel = selRun ∧
          runUnitsThen (runSelect px (lastPixel s) s).2 (retire px) (runSelect px (lastPixel s) s).1 = .next t) ∨
       (s.sel = selDelta ∧ runUnitsThen [deltaUnit px s.prev] (retire px) s = .next t) ∨
       (s.sel = selCache ∧
          runUnitsThen (cacheSelect px s).2 (retire px) (cacheSelect px s).1 = .next t))) := by
  unfold pixelStep at h
  cases hp : fetchPixel s s.pos with
  | none =>
    simp only [hp] at h
    injection h with h
    exact Or.inl ⟨rfl, h.symm⟩
  | some px =>
    simp only [hp] at h
    refine Or.inr ⟨px, rfl, ?_⟩
    unfold selectUnits at h
    by_cases h1 : s.sel = selRun
    · simp only [h1, if_true] at h
      exact Or.inl ⟨h1, h⟩
    · by_cases h2 : s.sel = selDelta
      · simp only [h2, if_neg (show ¬selDelta = selRun by decide), if_true] at h
        exact Or.inr (Or.inl ⟨h2, h⟩)
      · by_cases h3 : s.sel = selCache
        · simp only [h3, if_neg (show ¬selCache = selRun by decide), if_neg (show ¬selCache = selDelta by decide),
            if_true] at h
          exact Or.inr (Or.inr ⟨h3, h⟩)
        · simp only [h1, h2, h3, if_false] at h
          cases h

/-- What RUN selects: count, flush, or flush a pending run and write the literal (R150, R151). -/
theorem runSelect_cases (px : Pixel) (last : Bool) (s : State) :
    (px = s.prev ∧ runFull (s.run + 1#6) = false ∧ last = false ∧ runSelect px last s = (bumpRun s, [])) ∨
    (px = s.prev ∧ (runFull (s.run + 1#6) = true ∨ last = true) ∧
      runSelect px last s = (bumpRun s, [.run (s.run + 1#6)])) ∨
    (px ≠ s.prev ∧ s.run = 0#6 ∧ runSelect px last s = (s, [.rgba px.r px.g px.b px.a])) ∨
    (px ≠ s.prev ∧ s.run ≠ 0#6 ∧ runSelect px last s = (s, [.run s.run, .rgba px.r px.g px.b px.a])) := by
  unfold runSelect
  by_cases hp : px = s.prev
  · rw [if_pos hp]
    cases hf : runFull (s.run + 1#6) <;> cases hl : last <;> simp [hp, hf, flushUnits]
  · rw [if_neg hp]
    by_cases hr : s.run = 0#6 <;> simp [hp, hr, flushUnits]

/-- What CACHE selects: a hit, or a miss that overwrites the slot (R180). -/
theorem cacheSelect_cases (px : Pixel) (s : State) :
    (cacheHit s px = true ∧ cacheSelect px s = (s, [.index (hashOf s.cfg.hash px)])) ∨
    (cacheHit s px = false ∧
      cacheSelect px s = (cacheWrite (hashOf s.cfg.hash px) px s, [.rgba px.r px.g px.b px.a])) := by
  unfold cacheSelect
  cases cacheHit s px <;> simp

end Sys2Proof.Machine
end

