-- ==== Sys2Proof/Tests/Slice0.lean ====
section
/-! SUPPORT. Tests against the vectors of spec/95_test_vectors.md and the encodings of spec/opcode_table.json, and for every
statement with hypotheses a state that meets them. -/
namespace Sys2Proof.Machine.Tests

/-! ### Ill-formed units are refused -/

theorem test_wf_diff_dr_low : (Instr.diff (-3) 0 0).wf = false := by decide
theorem test_wf_diff_dr_high : (Instr.diff 2 0 0).wf = false := by decide
theorem test_wf_diff_dg_low : (Instr.diff 0 (-3) 0).wf = false := by decide
theorem test_wf_diff_dg_high : (Instr.diff 0 2 0).wf = false := by decide
theorem test_wf_diff_db_low : (Instr.diff 0 0 (-3)).wf = false := by decide
theorem test_wf_diff_db_high : (Instr.diff 0 0 2).wf = false := by decide
theorem test_wf_luma_dg_low : (Instr.luma (-33) 0 0).wf = false := by decide
theorem test_wf_luma_dg_high : (Instr.luma 32 0 0).wf = false := by decide
theorem test_wf_luma_drg_low : (Instr.luma 0 (-9) 0).wf = false := by decide
theorem test_wf_luma_drg_high : (Instr.luma 0 8 0).wf = false := by decide
theorem test_wf_luma_dbg_low : (Instr.luma 0 0 (-9)).wf = false := by decide
theorem test_wf_luma_dbg_high : (Instr.luma 0 0 8).wf = false := by decide
theorem test_wf_run_zero : (Instr.run 0#6).wf = false := by decide
theorem test_wf_run_sixty_three : (Instr.run 63#6).wf = false := by decide
theorem test_wf_header_width : (Instr.header 0#32 1#32 4#8 0#8).wf = false := by decide
theorem test_wf_header_height : (Instr.header 1#32 0#32 4#8 0#8).wf = false := by decide
theorem test_wf_header_channels : (Instr.header 1#32 1#32 5#8 0#8).wf = false := by decide
theorem test_wf_header_colorspace : (Instr.header 1#32 1#32 4#8 2#8).wf = false := by decide
theorem test_wf_config_max_pixels : { defaultConfig with maxPixels := 858993456#32 }.wf = false := by decide
theorem test_wf_config_no_pixels : { defaultConfig with maxPixels := 0#32 }.wf = false := by decide
theorem test_wf_tags_equal : { defaultTags with index := 0b11#2 }.wf = false := by decide
theorem test_wf_tags_literal : { defaultTags with rgb := 0x3E#8 }.wf = false := by decide
theorem test_wf_well_formed : (Instr.diff (-2) 1 0).wf = true ∧ (Instr.luma 31 (-8) 7).wf = true ∧ (Instr.run 62#6).wf = true ∧
    (Instr.header 1#32 1#32 3#8 1#8).wf = true ∧ defaultConfig.wf = true := by decide

/-! ### Words from opcode_table.json, written out bit by bit -/

/-- 00iiiiii, S6's 0E. -/
theorem test_decode_index : decodeOpcode defaultTags false [0b00_001110#8] = .ok (.index 14#6, []) := by rfl
/-- 01rrggbb, S5's 79. -/
theorem test_decode_diff : decodeOpcode defaultTags false [0b01_11_10_01#8] = .ok (.diff 1 0 (-1), []) := by rfl
/-- 10gggggg rrrrbbbb, D-15's BF 0F. -/
theorem test_decode_luma : decodeOpcode defaultTags false [0b10_111111#8, 0b0000_1111#8] = .ok (.luma 31 (-8) 7, []) := by rfl
/-- 11nnnnnn, R152's FD. -/
theorem test_decode_run : decodeOpcode defaultTags false [0b11_111101#8, 0#8] = .ok (.run 62#6, [0#8]) := by rfl
/-- FE r g b, D-17. -/
theorem test_decode_rgb : decodeOpcode defaultTags false [0xFE#8, 0x64#8, 0#8, 0#8] = .ok (.rgb 100#8 0#8 0#8, []) := by rfl
/-- FF r g b a, D-21. -/
theorem test_decode_rgba :
    decodeOpcode defaultTags false [0xFF#8, 0x0A#8, 0x14#8, 0x1E#8, 0x29#8] = .ok (.rgba 10#8 20#8 30#8 41#8, []) := by rfl
/-- FF r g b, R-11 with RUN_LIT3 = 3. -/
theorem test_decode_rgba_short :
    decodeOpcode defaultTags true [0xFF#8, 1#8, 2#8, 3#8] = .ok (.rgba 1#8 2#8 3#8 255#8, []) := by rfl
/-- F2. -/
theorem test_decode_header :
    decodeHeader defaultMagic [0x71#8, 0x6F#8, 0x69#8, 0x66#8, 0#8, 0#8, 2#8, 0x80#8, 0#8, 0#8, 1#8, 0xE0#8, 3#8, 1#8] =
      .ok (.header 640#32 480#32 3#8 1#8, []) := by rfl
/-- F4. -/
theorem test_decode_end : decodeEnd [0#8, 0#8, 0#8, 0#8, 0#8, 0#8, 0#8, 1#8] = .ok (.endMarker, []) := by rfl
/-- An OP_LUMA cut short, and a header with another magic. -/
theorem test_decode_rejects : decodeOpcode defaultTags false [0x80#8] = .error .truncated ∧
    decodeHeader defaultMagic (List.replicate 14 0#8) = .error .badMagic := ⟨rfl, rfl⟩

/-! ### States -/

/-- Phase PIXELS before the last pixel of a one-pixel image, the header's fourteen bytes counted. -/
def pixelState (sel : BitVec 3) (channels : Byte) (prev : Pixel) (run : BitVec 6) (bytes : List Byte) : State :=
  { State.reset with
    phase := .pixels, sel := sel, channels := channels, prev := prev, run := run, inLen := bytes.length,
    inMem := Memory.ofBytes .IN 0 bytes, pxLen := channels.setWidth 32, width := 1#32, height := 1#32, present := 7#3,
    bound := channels.setWidth 32 + 23#32, p := 14#32, out := some [] }

/-- The bytes of OUT in a next state, from the lowest offset. -/
def outOf (o : Host.Outcome State Fault Refusal) : Option (List Byte) :=
  match o with
  | .next s => s.out.map fun m => m.map Prod.snd
  | .fault _ => none
  | .refused _ => none

/-- A field of a next state. -/
def fieldOf {α : Type} (f : State → α) (o : Host.Outcome State Fault Refusal) : Option α :=
  match o with
  | .next s => some (f s)
  | .fault _ => none
  | .refused _ => none

/-! ### Vectors -/

/-- R-12: a pending run of 3 and a different pixel; the room is widened to hold both units. -/
theorem test_run_flush_then_literal :
    outOf (step { pixelState selRun 4#8 seedPixel 3#6 [1#8, 2#8, 3#8, 4#8] with bound := 60#32 }) =
      some [0xC2#8, 0xFF#8, 1#8, 2#8, 3#8, 4#8] := by decide
/-- R150's example: the run reaches 62 before the last pixel. -/
theorem test_run_flush_at_62 :
    outOf (step { pixelState selRun 4#8 ⟨5#8, 5#8, 5#8, 255#8⟩ 61#6 [5#8, 5#8, 5#8, 255#8] with pxLen := 8#32 }) =
      some [0xFD#8] := by decide
/-- R-1: the last pixel flushes. -/
theorem test_run_flush_last :
    outOf (step (pixelState selRun 4#8 seedPixel 0#6 [0#8, 0#8, 0#8, 255#8])) = some [0xC0#8] := by decide
/-- R-11: three channels, the literal carries alpha 255; with RUN_LIT3 = 3 it carries none. -/
theorem test_run_literal_three_channels :
    outOf (step (pixelState selRun 3#8 seedPixel 0#6 [1#8, 2#8, 3#8])) = some [0xFF#8, 1#8, 2#8, 3#8, 0xFF#8] ∧
    outOf (step { pixelState selRun 3#8 seedPixel 0#6 [1#8, 2#8, 3#8] with cfg := { defaultConfig with runLit3 := .three } }) =
      some [0xFF#8, 1#8, 2#8, 3#8] := by decide
/-- D-1 and D-3. -/
theorem test_delta_diff :
    outOf (step (pixelState selDelta 4#8 seedPixel 0#6 [1#8, 0#8, 255#8, 255#8])) = some [0x79#8] ∧
    outOf (step (pixelState selDelta 4#8 seedPixel 0#6 [254#8, 254#8, 254#8, 255#8])) = some [0x40#8] := by decide
/-- D-16 and D-6. -/
theorem test_delta_luma :
    outOf (step (pixelState selDelta 4#8 seedPixel 0#6 [10#8, 8#8, 6#8, 255#8])) = some [0xA8#8, 0xA6#8] ∧
    outOf (step (pixelState selDelta 4#8 seedPixel 0#6 [253#8, 0#8, 0#8, 255#8])) = some [0xA0#8, 0x58#8] := by decide
/-- D-19 and D-14. -/
theorem test_delta_rgb :
    outOf (step (pixelState selDelta 4#8 seedPixel 0#6 [127#8, 224#8, 0#8, 255#8])) = some [0xFE#8, 0x7F#8, 0xE0#8, 0#8] ∧
    outOf (step (pixelState selDelta 4#8 seedPixel 0#6 [223#8, 223#8, 223#8, 255#8])) =
      some [0xFE#8, 0xDF#8, 0xDF#8, 0xDF#8] := by decide
/-- D-20. -/
theorem test_delta_alpha :
    outOf (step (pixelState selDelta 4#8 seedPixel 0#6 [0#8, 0#8, 0#8, 0#8])) = some [0xFF#8, 0#8, 0#8, 0#8, 0#8] := by decide
/-- C-1: a hit on the initial slot 0; C-4's first pixel: a miss that fills slot 14. -/
theorem test_cache_hit_and_miss :
    outOf (step (pixelState selCache 4#8 seedPixel 0#6 [0#8, 0#8, 0#8, 0#8])) = some [0x00#8] ∧
    outOf (step (pixelState selCache 4#8 seedPixel 0#6 [1#8, 2#8, 3#8, 4#8])) = some [0xFF#8, 1#8, 2#8, 3#8, 4#8] ∧
    fieldOf (fun s => s.cache[14]) (step (pixelState selCache 4#8 seedPixel 0#6 [1#8, 2#8, 3#8, 4#8])) =
      some ⟨1#8, 2#8, 3#8, 4#8⟩ := by decide
/-- H-2, H-5, H-6, H-8. -/
theorem test_hash : publishedHash ⟨0#8, 0#8, 0#8, 255#8⟩ = 53#6 ∧ publishedHash ⟨1#8, 0#8, 0#8, 1#8⟩ = 14#6 ∧
    publishedHash ⟨255#8, 0#8, 0#8, 255#8⟩ = 50#6 ∧ publishedHash ⟨255#8, 255#8, 255#8, 255#8⟩ = 38#6 := by decide
/-- P5(c): the second pixel of two is not in the buffer. -/
theorem test_in_overrun :
    fieldOf (fun s => (s.faultInOverrun, s.pos, s.phase))
      (step { pixelState selDelta 4#8 ⟨1#8, 2#8, 3#8, 4#8⟩ 0#6 [1#8, 2#8, 3#8, 4#8] with pxLen := 8#32, pos := 4#32 }) =
      some (true, 4#32, .pixels) := by decide
/-- P4: the end marker overflows at offset 30; six of its bytes stand. -/
theorem test_footer_overflow :
    fieldOf (fun s => (s.faultOutOverflow, s.p, s.phase))
      (step { pixelState selCache 3#8 seedPixel 0#6 [] with phase := .footer, p := 24#32, bound := 30#32 }) =
      some (true, 30#32, .footer) := by decide
/-- F2: the header of a 640 by 480 image. -/
theorem test_header_bytes : headerBytes defaultMagic 640#32 480#32 3#8 1#8 =
    [0x71#8, 0x6F#8, 0x69#8, 0x66#8, 0#8, 0#8, 2#8, 0x80#8, 0#8, 0#8, 1#8, 0xE0#8, 3#8, 1#8] := by decide

/-- A descriptor with every buffer present, in phase VALIDATE. -/
def descState (width height : Word) (channels colorspace : Byte) : State :=
  { State.reset with
    phase := .validate, present := 7#3, width := width, height := height, channels := channels, colorspace := colorspace }

/-- V4, V8 accepted; V5, V9, V12, V14, V15, V16, V20 rejected. -/
theorem test_validation :
    invalid (descState 1#32 399999999#32 4#8 0#8) = false ∧ invalid (descState 3#32 133333332#32 4#8 0#8) = false ∧
    invalid (descState 1#32 400000000#32 4#8 0#8) = true ∧ invalid (descState 3#32 133333333#32 4#8 0#8) = true ∧
    invalid (descState 400000001#32 1#32 4#8 0#8) = true ∧ invalid (descState 0#32 1#32 4#8 0#8) = true ∧
    invalid (descState 1#32 0#32 4#8 0#8) = true ∧ invalid (descState 1#32 1#32 5#8 0#8) = true ∧
    invalid (descState 1#32 1#32 4#8 2#8) = true := by decide
/-- V22, V23, V24: each presence bit alone missing. -/
theorem test_validation_presence :
    invalid { descState 1#32 1#32 4#8 0#8 with present := 0b110#3 } = true ∧
    invalid { descState 1#32 1#32 4#8 0#8 with present := 0b101#3 } = true ∧
    invalid { descState 1#32 1#32 4#8 0#8 with present := 0b011#3 } = true := by decide
/-- V3 and V26. -/
theorem test_sizes :
    (computeSizes (descState 640#32 480#32 3#8 0#8)).bound = 1228822#32 ∧
    (computeSizes (descState 640#32 480#32 3#8 0#8)).pxLen = 921600#32 ∧
    (computeSizes (descState 1#32 858993454#32 4#8 0#8)).bound = 4294967292#32 := by decide

/-- A START of strategy `sel` for a one-pixel, 4-channel image. -/
def startCmd (sel : BitVec 3) : StartCmd :=
  { sel := sel, inPresent := true, lenPresent := true, descPresent := true, width := 1#32, height := 1#32,
    channels := 4#8, colorspace := 0#8, buffer := [1#8, 2#8, 3#8, 4#8], allocOk := true }

/-- R100's example (with another size), and P5(d). -/
theorem test_start :
    fieldOf (fun s => (s.phase, s.prev, s.p, s.present)) (step { State.reset with host := [.start (startCmd selDelta)] }) =
      some (.validate, ⟨0#8, 0#8, 0#8, 255#8⟩, 0#32, 0b111#3) ∧
    fieldOf (fun s => (s.phase, s.refused)) (step { State.reset with host := [.start (startCmd 0b011#3)] }) =
      some (.idle, true) := by decide

/-! ### Witnesses: states that meet the hypotheses of the statements -/

/-- `Ready`, with exactly one byte less than room for five, and exactly room for five. -/
def readyState (room : Word) : State := { pixelState selDelta 4#8 seedPixel 1#6 [] with p := 14#32, bound := 14#32 + room }

/-- Ready, and both clauses of each unit's meaning at their boundary: the bytes fit exactly, and one byte is missing. -/
theorem witness_units :
    Ready (readyState 5#32) [] ∧
    ((readyState 1#32).p.toNat + 1 ≤ (readyState 1#32).bound.toNat ∧ (readyState 0#32).bound.toNat < (readyState 0#32).p.toNat + 1) ∧
    ((readyState 2#32).p.toNat + 2 ≤ (readyState 2#32).bound.toNat ∧ (readyState 1#32).bound.toNat < (readyState 1#32).p.toNat + 2) ∧
    ((readyState 4#32).p.toNat + 4 ≤ (readyState 4#32).bound.toNat ∧ (readyState 3#32).bound.toNat < (readyState 3#32).p.toNat + 4) ∧
    ((readyState 5#32).p.toNat + 5 ≤ (readyState 5#32).bound.toNat ∧ (readyState 4#32).bound.toNat < (readyState 4#32).p.toNat + 5) ∧
    ((readyState 8#32).p.toNat + 8 ≤ (readyState 8#32).bound.toNat ∧ (readyState 7#32).bound.toNat < (readyState 7#32).p.toNat + 8) ∧
    ((readyState 14#32).p.toNat + 14 ≤ (readyState 14#32).bound.toNat ∧
      (readyState 13#32).bound.toNat < (readyState 13#32).p.toNat + 14) :=
  ⟨⟨rfl, rfl, rfl⟩, by decide⟩

/-- The operand ranges of DIFF, LUMA and RUN at their ends, with well-formed tags. -/
theorem witness_operands : (Instr.diff (-2) (-2) (-2)).wf = true ∧ (Instr.diff 1 1 1).wf = true ∧
    (Instr.luma (-32) (-8) (-8)).wf = true ∧ (Instr.luma 31 7 7).wf = true ∧ (Instr.run 1#6).wf = true ∧
    (Instr.run 62#6).wf = true ∧ (readyState 5#32).cfg.tags.wf = true := by decide

/-- The two clauses of RGBA's meaning: with the alpha byte, and in the short form. -/
theorem witness_RgbaMeaning :
    (readyState 5#32).channels = 4#8 ∧
    (let s := { readyState 5#32 with channels := 3#8, sel := 0b001#3, cfg := { defaultConfig with runLit3 := .three } }
     Ready s [] ∧ s.channels ≠ 4#8 ∧ s.sel = 0b001#3 ∧ s.cfg.runLit3 = .three) :=
  ⟨by decide, ⟨rfl, rfl, rfl⟩, by decide⟩

/-- `UnitFrame`: a unit that is no RUN, a RUN that fits, and a RUN that does not, each answering a next state. -/
theorem witness_UnitFrame :
    (∃ t, exec (.rgb 1#8 2#8 3#8) (readyState 4#32) = .next t) ∧
    (∃ t, exec (.run 1#6) (readyState 1#32) = .next t ∧ t.faultOutOverflow = false) ∧
    (∃ t, exec (.run 1#6) (readyState 0#32) = .next t ∧ t.faultOutOverflow = true) :=
  ⟨⟨_, rfl⟩, ⟨_, rfl, by decide⟩, ⟨_, rfl, by decide⟩⟩

/-- `UnitStops`: each of its four clauses. -/
theorem witness_UnitStops :
    faulted { readyState 5#32 with faultOutOverflow := true } = true ∧
    (faulted { readyState 5#32 with refused := true } = false ∧ { readyState 5#32 with refused := true }.refused = true) ∧
    (faulted State.reset = false ∧ State.reset.refused = false ∧ State.reset.out = none) ∧
    (faulted (readyState 5#32) = false ∧ (readyState 5#32).refused = false ∧ (readyState 5#32).out ≠ none) := by decide

/-- `DecodeOfEncode` and `FirstByteGivesLength`: well-formed parameters and units, and a short literal of alpha 255. -/
theorem witness_DecodeOfEncode : defaultConfig.wf = true ∧ (Instr.rgba 1#8 2#8 3#8 255#8).wf = true ∧
    placeOf false (.rgba 1#8 2#8 3#8 255#8) = .opcode false ∧
    encode defaultConfig false (.rgba 1#8 2#8 3#8 255#8) = 0xFF#8 :: [1#8, 2#8, 3#8, 255#8] := by decide

/-- `EncodeOfDecode`: something decodes at each of the three places. -/
theorem witness_EncodeOfDecode :
    (∃ i rest, decode defaultConfig .streamStart (headerBytes defaultMagic 1#32 1#32 4#8 0#8) = .ok (i, rest)) ∧
    (∃ i rest, decode defaultConfig (.opcode true) [0xFF#8, 1#8, 2#8, 3#8] = .ok (i, rest)) ∧
    (∃ i rest, decode defaultConfig .streamEnd [0#8, 0#8, 0#8, 0#8, 0#8, 0#8, 0#8, 1#8] = .ok (i, rest)) :=
  ⟨⟨_, _, rfl⟩, ⟨_, _, rfl⟩, ⟨_, _, rfl⟩⟩

/-- `StepIsMoveThenBlock`: a START at the head, a quiet move at the head, and no move left. -/
theorem witness_StepIsMoveThenBlock :
    ({ State.reset with host := [.start (startCmd selRun)] } : State).host = .start (startCmd selRun) :: [] ∧
    Silent { State.reset with host := [.quiet, .quiet] } [.quiet] ∧ Silent State.reset [] :=
  ⟨rfl, Or.inl rfl, Or.inr ⟨rfl, rfl⟩⟩

/-- `StepRunsDecodedWord`: a LUMA word that a pixel selects, and one (A0 88, all deltas 0) that none selects. -/
theorem witness_StepRunsDecodedWord :
    (decodeTableWord 16 0xA6A8 = some (.luma 8 2 (-2)) ∧ (Instr.luma 8 2 (-2)).wf = true ∧
      (Instr.diff (8 + 2) 8 (8 + -2)).wf = false) ∧
    (decodeTableWord 16 0x88A0 = some (.luma 0 0 0) ∧ (Instr.luma 0 0 0).wf = true ∧
      (Instr.diff (0 + 0) 0 (0 + 0)).wf = true) := by decide

/-- The placed word's step, once: LUMA 8, 2, -2. -/
theorem test_placed_luma : outOf (step (State.reset.withFetchWord 16 0xA6A8)) = some [0xA8#8, 0xA6#8] := by decide
/-- The placed word's step, once: INDEX 63. -/
theorem test_placed_index : outOf (step (State.reset.withFetchWord 8 0x3F)) = some [0x3F#8] := by decide

/-- `PixelStepRunsSelectedUnits`: a selection of no unit, of one unit, and of two, the second of which runs. -/
theorem witness_PixelStepRunsSelectedUnits :
    (let s := { pixelState selRun 4#8 seedPixel 0#6 [0#8, 0#8, 0#8, 255#8] with pxLen := 8#32 }
     Silent s [] ∧ Unmarked s ∧ s.phase = .pixels ∧ s.pos.toNat < s.pxLen.toNat ∧ fetchPixel s s.pos = some seedPixel ∧
      selectUnits seedPixel s = some (bumpRun s, [])) ∧
    (let s := pixelState selDelta 4#8 seedPixel 0#6 [1#8, 2#8, 3#8, 4#8]
     let px : Pixel := ⟨1#8, 2#8, 3#8, 4#8⟩
     fetchPixel s s.pos = some px ∧ selectUnits px s = some (s, [.rgba 1#8 2#8 3#8 4#8]) ∧
      ∃ t, exec (.rgba 1#8 2#8 3#8 4#8) s = .next t) ∧
    (let s := { pixelState selRun 4#8 seedPixel 3#6 [1#8, 2#8, 3#8, 4#8] with bound := 60#32 }
     let px : Pixel := ⟨1#8, 2#8, 3#8, 4#8⟩
     fetchPixel s s.pos = some px ∧ selectUnits px s = some (s, [.run 3#6, .rgba 1#8 2#8 3#8 4#8]) ∧
      ∃ t v, exec (.run 3#6) s = .next t ∧ faulted t = false ∧ exec (.rgba 1#8 2#8 3#8 4#8) t = .next v) ∧
    (let s := { pixelState selRun 4#8 seedPixel 3#6 [1#8, 2#8, 3#8, 4#8] with bound := 14#32 }
     selectUnits ⟨1#8, 2#8, 3#8, 4#8⟩ s = some (s, [.run 3#6, .rgba 1#8 2#8 3#8 4#8]) ∧
      ∃ t, exec (.run 3#6) s = .next t ∧ faulted t = true) := by
  refine ⟨⟨Or.inr ⟨rfl, rfl⟩, ⟨rfl, rfl⟩, rfl, by decide, rfl, by rfl⟩, ⟨rfl, rfl, _, rfl⟩, ⟨rfl, rfl, _, _, rfl, rfl, rfl⟩,
    ⟨rfl, _, rfl, rfl⟩⟩

/-- `StartBeginsCall`, `BadSelectorRefused`, `OutOfTurnRefusedAndQuiescent`: an accepted START from power-on, from DONE and
from FAIL, a bad selector, and a START in PIXELS. -/
theorem witness_start :
    (State.reset.phase = .idle ∧ Unmarked State.reset ∧ (startCmd selCache).sel = 0b100#3) ∧
    Unmarked { State.reset with phase := .done } ∧ Unmarked { State.reset with phase := .fail } ∧
    ((startCmd 0b111#3).sel ≠ 0b001#3 ∧ (startCmd 0b111#3).sel ≠ 0b010#3 ∧ (startCmd 0b111#3).sel ≠ 0b100#3) ∧
    (let s := fun ph : Phase => { State.reset with phase := ph, host := [.start (startCmd selRun)] }
     (s .validate).phase = .validate ∧ (s .alloc).phase = .alloc ∧ (s .header).phase = .header ∧
      (s .pixels).phase = .pixels ∧ (s .footer).phase = .footer ∧
      (s .footer).host = .start (startCmd selRun) :: []) ∧
    (let s := { State.reset with host := [.start (startCmd selRun)] }
     { s with faultOutOverflow := true }.faultOutOverflow = true ∧ { s with faultInOverrun := true }.faultInOverrun = true ∧
      { s with refused := true }.refused = true) ∧
    (Silent { State.reset with phase := .done } [] ∧ Unmarked { State.reset with phase := .done }) :=
  ⟨⟨rfl, ⟨rfl, rfl⟩, rfl⟩, ⟨rfl, rfl⟩, ⟨rfl, rfl⟩, by decide, ⟨rfl, rfl, rfl, rfl, rfl, rfl⟩, ⟨rfl, rfl, rfl⟩,
    Or.inr ⟨rfl, rfl⟩, rfl, rfl⟩

/-- `MarkedStateHasNoStep`: a fault bit, and REFUSED alone. -/
theorem witness_MarkedStateHasNoStep :
    (Silent { State.reset with faultInOverrun := true } [] ∧ faulted { State.reset with faultInOverrun := true } = true) ∧
    (Silent { State.reset with refused := true } [] ∧ faulted { State.reset with refused := true } = false ∧
      { State.reset with refused := true }.refused = true) :=
  ⟨⟨Or.inr ⟨rfl, rfl⟩, rfl⟩, Or.inr ⟨rfl, rfl⟩, rfl, rfl⟩

/-- `MarksAreSticky` (a step with a mark set: a refused START), `OnlyNamedWriters` (a silent step in each phase's clause)
and `FaultStopsTheStep` for IN_OVERRUN. -/
theorem witness_marks :
    (∃ t, step { State.reset with faultOutOverflow := true, host := [.start (startCmd selRun)] } = .next t) ∧
    (∃ t, step { State.reset with faultInOverrun := true, host := [.start (startCmd selRun)] } = .next t) ∧
    (∃ t, step { State.reset with refused := true, host := [.start (startCmd selRun)] } = .next t) ∧
    (Silent State.reset [] ∧ ∃ t, step State.reset = .next t) ∧
    (∃ t, step (descState 1#32 1#32 4#8 0#8) = .next t) ∧
    (∃ t, step { descState 1#32 1#32 4#8 0#8 with phase := .alloc } = .next t) ∧
    (∃ t, step { readyState 14#32 with phase := .header } = .next t) ∧
    (∃ t, step { readyState 8#32 with phase := .footer } = .next t) ∧
    (∃ t, step (pixelState selRun 4#8 seedPixel 0#6 []) = .next t ∧ faulted (pixelState selRun 4#8 seedPixel 0#6 []) = false ∧
      faulted t = true) :=
  ⟨⟨_, rfl⟩, ⟨_, rfl⟩, ⟨_, rfl⟩, ⟨Or.inr ⟨rfl, rfl⟩, _, rfl⟩, ⟨_, rfl⟩, ⟨_, rfl⟩, ⟨_, rfl⟩, ⟨_, rfl⟩, ⟨_, rfl, rfl, rfl⟩⟩

/-- `FaultStopsTheStep` for OUT_OVERFLOW: a CACHE miss whose literal does not fit (PREV and POS stay, R203), and the end
marker. -/
theorem witness_FaultStopsTheStep :
    (let s := { pixelState selCache 4#8 seedPixel 0#6 [1#8, 2#8, 3#8, 4#8] with bound := 16#32 }
     faulted s = false ∧
      fieldOf (fun t => (t.faultOutOverflow, t.prev, t.pos, t.p)) (step s) = some (true, seedPixel, 0#32, 16#32)) ∧
    (let s := { readyState 7#32 with phase := .footer }
     faulted s = false ∧ fieldOf (fun t => faulted t) (step s) = some true) := by decide

/-- `ValidateStep`: an invalid and a valid descriptor in VALIDATE; `AcceptedSizesDoNotOverflow`: the largest accepted image
of V26. -/
theorem witness_validation :
    (Silent (descState 0#32 1#32 4#8 0#8) [] ∧ Unmarked (descState 0#32 1#32 4#8 0#8) ∧
      (descState 0#32 1#32 4#8 0#8).phase = .validate ∧ invalid (descState 0#32 1#32 4#8 0#8) = true) ∧
    invalid (descState 1#32 1#32 4#8 1#8) = false ∧
    (let s := { descState 1#32 858993454#32 4#8 0#8 with cfg := { defaultConfig with maxPixels := 858993455#32 } }
     s.cfg.wf = true ∧ invalid s = false) :=
  ⟨⟨Or.inr ⟨rfl, rfl⟩, ⟨rfl, rfl⟩, rfl, by decide⟩, by decide, by decide⟩

/-- `AllocStep`: both answers of the allocator. -/
theorem witness_AllocStep :
    let s := { descState 1#32 1#32 4#8 0#8 with phase := .alloc, allocOk := true }
    let f := { descState 1#32 1#32 4#8 0#8 with phase := .alloc }
    Silent s [] ∧ Unmarked s ∧ s.phase = .alloc ∧ s.cfg.wf = true ∧ invalid s = false ∧ s.allocOk = true ∧
      f.allocOk = false ∧ invalid f = false :=
  ⟨Or.inr ⟨rfl, rfl⟩, ⟨rfl, rfl⟩, rfl, by decide, by decide, rfl, rfl, by decide⟩

/-- `HeaderStep` at its boundary, `EndTest`, and both clauses of `FooterStep` at theirs. -/
theorem witness_records :
    (let s := { readyState 14#32 with phase := .header }
     Silent s [] ∧ Ready s [] ∧ s.phase = .header ∧ s.p.toNat + 14 ≤ s.bound.toNat) ∧
    (let s := { pixelState selRun 4#8 seedPixel 0#6 [] with pos := 4#32 }
     Silent s [] ∧ Unmarked s ∧ s.phase = .pixels ∧ s.pos = s.pxLen) ∧
    (let s := { readyState 8#32 with phase := .footer }
     Silent s [] ∧ Ready s [] ∧ s.phase = .footer ∧ s.p.toNat + 8 ≤ s.bound.toNat) ∧
    (let s := { readyState 7#32 with phase := .footer }
     Silent s [] ∧ Ready s [] ∧ s.phase = .footer ∧ s.bound.toNat < s.p.toNat + 8) :=
  ⟨⟨Or.inr ⟨rfl, rfl⟩, ⟨rfl, rfl, rfl⟩, rfl, by decide⟩, ⟨Or.inr ⟨rfl, rfl⟩, ⟨rfl, rfl⟩, rfl, rfl⟩,
    ⟨Or.inr ⟨rfl, rfl⟩, ⟨rfl, rfl, rfl⟩, rfl, by decide⟩, ⟨Or.inr ⟨rfl, rfl⟩, ⟨rfl, rfl, rfl⟩, rfl, by decide⟩⟩

/-- `FetchAndOverrun`: one byte missing, and exactly enough; four and three channels. -/
theorem witness_FetchAndOverrun :
    (let s := pixelState selDelta 4#8 seedPixel 0#6 [1#8, 2#8, 3#8]
     Silent s [] ∧ Unmarked s ∧ s.phase = .pixels ∧ s.pos.toNat < s.pxLen.toNat ∧ s.channels = 4#8 ∧
      s.pos.toNat + s.channels.toNat ≤ 2 ^ 32 ∧ s.inLen < s.pos.toNat + s.channels.toNat) ∧
    (let s := pixelState selDelta 3#8 seedPixel 0#6 [1#8, 2#8, 3#8]
     s.channels = 3#8 ∧ s.pos.toNat + s.channels.toNat ≤ s.inLen) :=
  ⟨⟨Or.inr ⟨rfl, rfl⟩, ⟨rfl, rfl⟩, rfl, by decide⟩, by decide⟩

/-- `RunStepEqual`: counting below 62 before the last pixel, the run reaching 62, and the last pixel. -/
theorem witness_RunStepEqual :
    (let s := { pixelState 0b001#3 4#8 seedPixel 60#6 [0#8, 0#8, 0#8, 255#8] with pxLen := 8#32 }
     Silent s [] ∧ Ready s [] ∧ s.phase = .pixels ∧ s.sel = 0b001#3 ∧ s.pos.toNat < s.pxLen.toNat ∧
      fetchPixel s s.pos = some s.prev ∧ s.run.toNat ≤ 61 ∧ s.run.toNat + 1 ≠ 62 ∧
      s.pos ≠ s.pxLen - s.channels.setWidth 32) ∧
    (let s := { pixelState 0b001#3 4#8 seedPixel 61#6 [0#8, 0#8, 0#8, 255#8] with pxLen := 8#32 }
     fetchPixel s s.pos = some s.prev ∧ s.run.toNat ≤ 61 ∧ s.run.toNat + 1 = 62 ∧ s.p.toNat < s.bound.toNat) ∧
    (let s := pixelState 0b001#3 4#8 seedPixel 0#6 [0#8, 0#8, 0#8, 255#8]
     fetchPixel s s.pos = some s.prev ∧ s.pos = s.pxLen - s.channels.setWidth 32) :=
  ⟨⟨Or.inr ⟨rfl, rfl⟩, ⟨rfl, rfl, rfl⟩, rfl, rfl, by decide⟩, by decide, by decide⟩

/-- `RunStepDifferent`: with no run pending and with one, the bytes fitting exactly, and the short literal. -/
theorem witness_RunStepDifferent :
    (let s := { pixelState 0b001#3 4#8 seedPixel 0#6 [1#8, 2#8, 3#8, 4#8] with bound := 19#32 }
     let px : Pixel := ⟨1#8, 2#8, 3#8, 4#8⟩
     Silent s [] ∧ Ready s [] ∧ s.phase = .pixels ∧ s.sel = 0b001#3 ∧ s.pos.toNat < s.pxLen.toNat ∧
      fetchPixel s s.pos = some px ∧ px ≠ s.prev ∧ s.run = 0 ∧ s.p.toNat + (runLiteral s px).length ≤ s.bound.toNat) ∧
    (let s := { pixelState 0b001#3 3#8 seedPixel 62#6 [1#8, 2#8, 3#8] with
      bound := 19#32, cfg := { defaultConfig with runLit3 := .three } }
     let px : Pixel := ⟨1#8, 2#8, 3#8, 255#8⟩
     fetchPixel s s.pos = some px ∧ px ≠ s.prev ∧ s.run ≠ 0 ∧
      s.p.toNat + 1 + (runLiteral s px).length ≤ s.bound.toNat) :=
  ⟨⟨Or.inr ⟨rfl, rfl⟩, ⟨rfl, rfl, rfl⟩, rfl, rfl, by decide⟩, by decide⟩

/-- `DeltaStep`: for an alpha change, a DIFF, a LUMA and an RGB, each fitting exactly. -/
theorem witness_DeltaStep :
    (let s := { pixelState 0b010#3 4#8 seedPixel 0#6 [0#8, 0#8, 0#8, 0#8] with bound := 19#32 }
     Silent s [] ∧ Ready s [] ∧ s.phase = .pixels ∧ s.sel = 0b010#3 ∧ s.pos.toNat < s.pxLen.toNat ∧
      fetchPixel s s.pos = some zeroPixel ∧
      s.p.toNat + (deltaBytes s.cfg.tags zeroPixel s.prev).length ≤ s.bound.toNat) ∧
    deltaBytes defaultTags ⟨1#8, 1#8, 1#8, 255#8⟩ seedPixel = [0x7F#8] ∧
    deltaBytes defaultTags ⟨23#8, 31#8, 38#8, 255#8⟩ seedPixel = [0xBF#8, 0x0F#8] ∧
    deltaBytes defaultTags ⟨0#8, 224#8, 0#8, 255#8⟩ seedPixel = [0xFE#8, 0#8, 0xE0#8, 0#8] :=
  ⟨⟨Or.inr ⟨rfl, rfl⟩, ⟨rfl, rfl, rfl⟩, rfl, rfl, by decide⟩, by decide, by decide, by decide⟩

/-- `CacheStep`: a hit and a miss, each fitting exactly; `MissThenHit`: a miss, with a second pixel of the same bucket and
one of another. -/
theorem witness_cache :
    (let s := { pixelState 0b100#3 4#8 seedPixel 0#6 [0#8, 0#8, 0#8, 0#8] with bound := 15#32 }
     Silent s [] ∧ Ready s [] ∧ s.phase = .pixels ∧ s.sel = 0b100#3 ∧ s.pos.toNat < s.pxLen.toNat ∧
      fetchPixel s s.pos = some zeroPixel ∧ s.cache[(hashOf s.cfg.hash zeroPixel).toNat] = zeroPixel ∧
      s.p.toNat + 1 ≤ s.bound.toNat) ∧
    (let s := { pixelState 0b100#3 4#8 seedPixel 0#6 [1#8, 2#8, 3#8, 4#8] with bound := 19#32 }
     let px : Pixel := ⟨1#8, 2#8, 3#8, 4#8⟩
     fetchPixel s s.pos = some px ∧ s.cache[(hashOf s.cfg.hash px).toNat] ≠ px ∧ s.p.toNat + 5 ≤ s.bound.toNat ∧
      cacheHit s px = false ∧ hashOf s.cfg.hash ⟨0#8, 0#8, 2#8, 0#8⟩ = hashOf s.cfg.hash px ∧
      hashOf s.cfg.hash seedPixel ≠ hashOf s.cfg.hash px) :=
  ⟨⟨Or.inr ⟨rfl, rfl⟩, ⟨rfl, rfl, rfl⟩, rfl, rfl, by decide⟩, by decide⟩

/-- `StrategyRepertoire`, `SelectedUnitsDecode`, `SelectedUnitsNameThePixel`: a RUN selection of two units at run 61, the
short literal's alpha 255, a DELTA and a CACHE selection. -/
theorem witness_selection :
    (let s := { pixelState selRun 3#8 seedPixel 61#6 [] with cfg := { defaultConfig with runLit3 := .three } }
     let px : Pixel := ⟨1#8, 2#8, 3#8, 255#8⟩
     s.cfg.wf = true ∧ s.run.toNat ≤ 61 ∧ s.sel = 0b001#3 ∧
      selectUnits px s = some (s, [.run 61#6, .rgba 1#8 2#8 3#8 255#8]) ∧ shortLiteral s = true ∧ px.a = 255#8) ∧
    (let s := pixelState selDelta 4#8 seedPixel 0#6 []
     s.sel ≠ 0b001#3 ∧ selectUnits seedPixel s = some (s, [.diff 0 0 0])) ∧
    (let s := pixelState selCache 4#8 seedPixel 0#6 []
     s.sel ≠ 0b001#3 ∧ selectUnits zeroPixel s = some (s, [.index 0#6])) :=
  ⟨⟨by decide, by decide, rfl, rfl, by decide, rfl⟩, ⟨by decide, rfl⟩, ⟨by decide, rfl⟩⟩

/-! ### Witnesses of the invariants -/

/-- A call in PIXELS: a one-pixel 4-channel RUN image, its header written. -/
def midCall : State :=
  { pixelState selRun 4#8 seedPixel 0#6 [1#8, 2#8, 3#8, 4#8] with
    out := some (Memory.writeList .OUT [] 0 (headerBytes defaultMagic 1#32 1#32 4#8 0#8)) }

theorem witness_Inv_pixels : Inv midCall ∧ Unmarked midCall ∧ ∃ t, step midCall = .next t := by
  refine ⟨?_, ⟨rfl, rfl⟩, ⟨_, rfl⟩⟩
  constructor
  case outCells =>
    intro m hm
    injection hm with hm
    subst hm
    decide
  all_goals decide

theorem witness_Capacity : Capacity midCall ∧ fittingRow midCall = true :=
  ⟨⟨by decide, by decide, by decide⟩, by decide⟩

theorem witness_StreamFramed : StreamFramed midCall ∧ afterHeader midCall.phase = true :=
  ⟨⟨fun _ => by decide, by decide⟩, by decide⟩

theorem witness_BuffersCanonical : BuffersCanonical midCall := by
  refine ⟨by decide, fun m hm => ?_⟩
  injection hm with hm
  subst hm
  decide

/-- A call in VALIDATE, seeded, left alone. -/
def freshCall : State := { descState 1#32 1#32 4#8 0#8 with sel := selRun, prev := seedPixel }

theorem witness_EveryCallTerminates :
    Inv freshCall ∧ Unmarked freshCall ∧ freshCall.phase = .validate ∧ freshCall.host = [] := by
  refine ⟨?_, ⟨rfl, rfl⟩, rfl, rfl⟩
  constructor
  case outCells =>
    intro m hm
    cases hm
  all_goals decide

/-- A finished call: `ResultInDoneOnly` in DONE and elsewhere. -/
def doneCall : State :=
  { midCall with
    phase := .done, pos := 4#32, p := 27#32, outLen := 27#32, prev := ⟨1#8, 2#8, 3#8, 4#8⟩,
    out := some (Memory.writeList .OUT [] 0
      (headerBytes defaultMagic 1#32 1#32 4#8 0#8 ++ [0xFF#8, 1#8, 2#8, 3#8, 4#8] ++ endBytes)) }

theorem witness_ResultInDoneOnly : Inv doneCall ∧ doneCall.phase = .done ∧ midCall.phase ≠ .done ∧ midCall.phase ≠ .fail := by
  refine ⟨?_, rfl, by decide, by decide⟩
  constructor
  case outCells =>
    intro m hm
    injection hm with hm
    subst hm
    decide
  all_goals decide

/-- A failed call: the host's view in FAIL. -/
def failedCall : State := { descState 0#32 1#32 4#8 0#8 with phase := .fail, err := .invalidDescriptor, sel := selRun }

theorem witness_Inv_fail : Inv failedCall ∧ failedCall.phase = .fail := by
  refine ⟨?_, rfl⟩
  constructor
  case outCells =>
    intro m hm
    cases hm
  all_goals decide

/-- The result of a finished call (27 bytes, R-2), the error of a failed one and the numeric codes of
R200. -/
theorem test_host_view :
    (result doneCall).map List.length = some 27 ∧ result midCall = none ∧ goodEnd doneCall = true ∧
    observedError failedCall = some .invalidDescriptor ∧ errorCode .invalidDescriptor = 1 ∧
    errorCode .allocationFailure = 2 := by decide

/-- `ResultForgetsThePast`: the same START on a block just powered on and on one that has finished a call. -/
theorem witness_ResultForgetsThePast :
    let s1 := { State.reset with host := [.start (startCmd selDelta)] }
    let s2 := { doneCall with host := [.start (startCmd selDelta)] }
    accepts s1 = true ∧ accepts s2 = true ∧ s1.cfg = s2.cfg ∧ legalSel (startCmd selDelta).sel = true ∧
      ∃ t1, Sys2Proof.core.run (0 + 1) s1 = .next t1 :=
  ⟨by decide, by decide, rfl, by decide, _, rfl⟩

end Sys2Proof.Machine.Tests
end

/-! PROOFS. The state's statements (spec/10_state.md): what a unit leaves unchanged, which step writes which register, and
the invariant. The proofs go through two summaries: `Emitted`, what a list of units does, and `Selected`, what a pixel's
strategy does before its units are written. -/
namespace Sys2Proof.Machine

/-! ### What units write -/

theorem Memory.writeList_append (sp : Space) (xs ys : List Byte) (m : Memory) (addr : Nat) :
    Memory.writeList sp m addr (xs ++ ys) =
      Memory.writeList sp (Memory.writeList sp m addr xs) (addr + xs.length) ys := by
  induction xs generalizing m addr with
  | nil => rfl
  | cons x xs ih =>
    simp only [List.cons_append, Memory.writeList, ih, List.length_cons]
    congr 1
    omega

/-- The bytes of several units. -/
def unitsLength (shortLit : Bool) (units : List Instr) : Nat := (units.map (unitLength shortLit)).sum

theorem unitsLength_cons (shortLit : Bool) (i : Instr) (is : List Instr) :
    unitsLength shortLit (i :: is) = unitLength shortLit i + unitsLength shortLit is := by
  simp [unitsLength]

@[simp] theorem unitsLength_singleton (shortLit : Bool) (i : Instr) :
    unitsLength shortLit [i] = unitLength shortLit i := by
  simp [unitsLength]

theorem unitsLength_pos (shortLit : Bool) {units : List Instr} (h : units ≠ []) :
    0 < unitsLength shortLit units := by
  cases units with
  | nil => exact absurd rfl h
  | cons i is =>
    have := unitLength_pos shortLit i
    rw [unitsLength_cons]
    omega

/-- One of the units is a RUN: the only unit that writes the run counter (R152). -/
def flushes (units : List Instr) : Prop := ∃ n, Instr.run n ∈ units

/-- What `units` do to `s`, faulted or not: bytes are stored from the cursor upwards, and the run counter may be cleared;
nothing else changes (R54, R152, R203). -/
structure Emitted (units : List Instr) (s u : State) : Prop where
  frame : ∃ o p f r, u = { s with out := o, p := p, faultOutOverflow := f, run := r }
  /-- Bytes are stored at the cursor, and the cursor moves past them. -/
  bytes : ∃ bs, u.out = s.out.map (fun m => Memory.writeList .OUT m s.p.toNat bs) ∧
    u.p.toNat = s.p.toNat + bs.length
  /-- Nothing is stored at or above BOUND. -/
  within : s.p.toNat ≤ s.bound.toNat → u.p.toNat ≤ s.bound.toNat
  /-- An overflow leaves no room, and a byte missing (R54). -/
  full : u.faultOutOverflow = true → s.faultOutOverflow = true ∨
    (s.bound.toNat ≤ u.p.toNat ∧ u.p.toNat < s.p.toNat + unitsLength (shortLiteral s) units)
  /-- Without an overflow every unit is there in full. -/
  length : u.faultOutOverflow = false → u.p.toNat = s.p.toNat + unitsLength (shortLiteral s) units
  /-- Without an overflow a RUN unit clears the counter. -/
  cleared : u.faultOutOverflow = false → flushes units → u.run = 0#6
  /-- Only a RUN unit that was written clears it. -/
  kept : u.run = s.run ∨ (flushes units ∧ u.run = 0#6 ∧ s.p.toNat < u.p.toNat)

namespace Emitted

theorem nil (s : State) : Emitted [] s s where
  frame := ⟨_, _, _, _, rfl⟩
  bytes := ⟨[], by cases s.out <;> simp [Memory.writeList], rfl⟩
  within := id
  full := Or.inl
  length _ := rfl
  cleared _ := fun ⟨_, hn⟩ => absurd hn List.not_mem_nil
  kept := Or.inl rfl

variable {units : List Instr} {s u : State}

theorem cursor (h : Emitted units s u) : s.p.toNat ≤ u.p.toNat := by
  obtain ⟨bs, -, hp⟩ := h.bytes
  omega

theorem bound_eq (h : Emitted units s u) : u.bound = s.bound := by
  obtain ⟨_, _, _, _, rfl⟩ := h.frame
  rfl

theorem shortLiteral_eq (h : Emitted units s u) : shortLiteral u = shortLiteral s := by
  obtain ⟨_, _, _, _, rfl⟩ := h.frame
  rfl

theorem faulted_eq (h : Emitted units s u) (hs : faulted s = false) : faulted u = u.faultOutOverflow := by
  obtain ⟨_, _, _, _, rfl⟩ := h.frame
  simp_all [faulted]

theorem run_eq (h : Emitted units s u) (hn : ¬ flushes units) : u.run = s.run :=
  h.kept.resolve_right fun hk => hn hk.1

theorem out_isSome (h : Emitted units s u) : u.out.isSome = s.out.isSome := by
  obtain ⟨bs, ho, -⟩ := h.bytes
  simp [ho]

/-- A byte of OUT outside the bytes written reads as before. -/
theorem outByte_outside (h : Emitted units s u) (a : Nat) (ha : a < s.p.toNat ∨ u.p.toNat ≤ a) :
    outByte u a = outByte s a := by
  obtain ⟨bs, ho, hp⟩ := h.bytes
  cases hs : s.out with
  | none => simp [outByte, ho, hs]
  | some m =>
    simp only [outByte, ho, hs, Option.map_some]
    rw [Memory.read_writeList_out, if_neg (by omega)]

/-- OUT stays filled without a gap (R60). -/
theorem cells (h : Emitted units s u) (hs : ∀ m, s.out = some m → m.map Prod.fst = List.range s.p.toNat) :
    ∀ m, u.out = some m → m.map Prod.fst = List.range u.p.toNat := by
  obtain ⟨bs, ho, hp⟩ := h.bytes
  intro m hm
  obtain ⟨m', hm', rfl⟩ := Option.map_eq_some_iff.mp (ho ▸ hm)
  rw [hp, Memory.offsets_writeList bs m' _ (hs m' hm')]

/-- The units of a list, one after the other. -/
theorem cons {i : Instr} {v : State} (h1 : Emitted [i] s v) (hv : v.faultOutOverflow = false)
    (h2 : Emitted units v u) : Emitted (i :: units) s u where
  frame := by
    obtain ⟨_, _, _, _, rfl⟩ := h1.frame
    obtain ⟨_, _, _, _, rfl⟩ := h2.frame
    exact ⟨_, _, _, _, rfl⟩
  bytes := by
    obtain ⟨xs, hxo, hxp⟩ := h1.bytes
    obtain ⟨ys, hyo, hyp⟩ := h2.bytes
    refine ⟨xs ++ ys, ?_, by rw [hyp, hxp, List.length_append]; omega⟩
    rw [hyo, hxo, hxp, Option.map_map]
    congr 1
    funext m
    exact (Memory.writeList_append .OUT xs ys m _).symm
  within hs := h1.bound_eq ▸ h2.within (h1.bound_eq ▸ h1.within hs)
  full hu := by
    have hlen := h1.length hv
    obtain ⟨hroom, hmissing⟩ := (h2.full hu).resolve_left (by simp [hv])
    rw [h1.bound_eq] at hroom
    rw [h1.shortLiteral_eq] at hmissing
    rw [unitsLength_singleton] at hlen
    rw [unitsLength_cons]
    exact Or.inr ⟨hroom, by omega⟩
  length hu := by
    rw [h2.length hu, h1.length hv, h1.shortLiteral_eq, unitsLength_singleton, unitsLength_cons, Nat.add_assoc]
  cleared hu := by
    rintro ⟨n, hn⟩
    rcases List.mem_cons.mp hn with hi | hn
    · have hv0 := h1.cleared hv ⟨n, hi ▸ List.mem_singleton_self _⟩
      rcases h2.kept with hk | ⟨-, hk, -⟩
      · exact hk.trans hv0
      · exact hk
    · exact h2.cleared hu ⟨n, hn⟩
  kept := by
    have hc1 := h1.cursor
    have hc2 := h2.cursor
    rcases h2.kept with hk2 | ⟨⟨n, hn⟩, hk2, hlt⟩
    · rcases h1.kept with hk1 | ⟨⟨n, hn⟩, hk1, hlt⟩
      · exact Or.inl (hk2.trans hk1)
      · exact Or.inr ⟨⟨n, List.mem_cons.mpr (Or.inl (List.mem_singleton.mp hn))⟩, hk2.trans hk1, by omega⟩
    · exact Or.inr ⟨⟨n, List.mem_cons_of_mem i hn⟩, hk2, by omega⟩

/-- A unit that overflowed is the last of its list. -/
theorem cons_of_overflow {i : Instr} (h : Emitted [i] s u) (hu : u.faultOutOverflow = true) :
    Emitted (i :: units) s u where
  frame := h.frame
  bytes := h.bytes
  within := h.within
  full hn := (h.full hn).imp id fun ⟨hroom, hmissing⟩ => by
    rw [unitsLength_singleton] at hmissing
    rw [unitsLength_cons]
    exact ⟨hroom, by omega⟩
  length hn := absurd hn (by simp [hu])
  cleared hn := absurd hn (by simp [hu])
  kept := h.kept.imp id fun ⟨⟨n, hn⟩, hk⟩ => ⟨⟨n, List.mem_cons.mpr (Or.inl (List.mem_singleton.mp hn))⟩, hk⟩

end Emitted

theorem stored_p_toNat (s : State) (m : Memory) (bytes : List Byte)
    (h : s.p.toNat + bytes.length ≤ s.bound.toNat) : (stored s m bytes).p.toNat = s.p.toNat + bytes.length := by
  have := s.bound.isLt
  simp only [stored, BitVec.toNat_add, BitVec.toNat_ofNat]
  omega

theorem overflowed_p_toNat (s : State) (m : Memory) (bytes : List Byte) :
    (overflowed s m bytes).p.toNat = s.p.toNat + (s.bound.toNat - s.p.toNat) := by
  have := s.bound.isLt
  have := s.p.isLt
  simp only [overflowed, BitVec.toNat_add, BitVec.toNat_ofNat]
  omega

theorem flushes_singleton (i : Instr) : flushes [i] ↔ ∃ n, i = .run n := by
  simp [flushes, eq_comm]

/-- After its bytes RUN clears the run counter and no other unit does anything (R152). -/
theorem unitAfter_eq (i : Instr) (s : State) :
    (flushes [i] ∧ unitAfter i s = { s with run := 0#6 }) ∨ (¬ flushes [i] ∧ unitAfter i s = s) := by
  rw [flushes_singleton]
  cases i <;> simp [unitAfter, clearRun]

/-- A unit that fits. -/
theorem emitted_stored (i : Instr) (s : State) (m : Memory) (hr : Ready s m)
    (hfit : s.p.toNat + unitLength (shortLiteral s) i ≤ s.bound.toNat) :
    Emitted [i] s (unitAfter i (stored s m (encode s.cfg (shortLiteral s) i))) := by
  obtain ⟨hf, -, ho⟩ := hr
  have hno : s.faultOutOverflow = false := by simp_all [faulted]
  have hp := stored_p_toNat s m (encode s.cfg (shortLiteral s) i) (by rw [encode_length]; exact hfit)
  have hb : s.out.map (fun m => Memory.writeList .OUT m s.p.toNat (encode s.cfg (shortLiteral s) i)) =
      (stored s m (encode s.cfg (shortLiteral s) i)).out := by simp [ho, stored]
  have hl := encode_length s.cfg (shortLiteral s) i
  have hpos := unitLength_pos (shortLiteral s) i
  rcases unitAfter_eq i (stored s m (encode s.cfg (shortLiteral s) i)) with ⟨hrun, h⟩ | ⟨hrun, h⟩
  · rw [h]
    exact
      { frame := ⟨_, _, _, _, rfl⟩
        bytes := ⟨_, hb.symm, hp⟩
        within := fun _ => by simp only; omega
        full := Or.inl
        length := fun _ => by simp only [unitsLength_singleton]; omega
        cleared := fun _ _ => rfl
        kept := Or.inr ⟨hrun, rfl, by simp only; omega⟩ }
  · rw [h]
    exact
      { frame := ⟨_, _, _, _, rfl⟩
        bytes := ⟨_, hb.symm, hp⟩
        within := fun _ => by omega
        full := Or.inl
        length := fun _ => by rw [unitsLength_singleton]; omega
        cleared := fun _ hn => absurd hn hrun
        kept := Or.inl rfl }

/-- A unit that does not fit. -/
theorem emitted_overflowed (i : Instr) (s : State) (m : Memory) (hr : Ready s m)
    (hov : s.bound.toNat < s.p.toNat + unitLength (shortLiteral s) i) :
    Emitted [i] s (overflowed s m (encode s.cfg (shortLiteral s) i)) := by
  obtain ⟨-, -, ho⟩ := hr
  have hp := overflowed_p_toNat s m (encode s.cfg (shortLiteral s) i)
  have hl := encode_length s.cfg (shortLiteral s) i
  have hpos := unitLength_pos (shortLiteral s) i
  exact
    { frame := ⟨_, _, _, _, rfl⟩
      bytes := ⟨(encode s.cfg (shortLiteral s) i).take (s.bound.toNat - s.p.toNat), by simp [ho, overflowed],
        by rw [hp, List.length_take]; omega⟩
      within := fun _ => by omega
      full := fun _ => Or.inr (by rw [unitsLength_singleton]; omega)
      length := fun hn => by cases hn
      cleared := fun hn => by cases hn
      kept := Or.inl rfl }

theorem emitted_of_exec {i : Instr} {s u : State} (h : exec i s = .next u) : Emitted [i] s u := by
  obtain ⟨m, hr, ⟨hfit, rfl⟩ | ⟨hov, rfl⟩⟩ := exec_next i s u h
  · exact emitted_stored i s m hr hfit
  · exact emitted_overflowed i s m hr hov

/-- Everything a list of units and the rest of its step can do (R203). -/
theorem emitted_of_runUnitsThen {units : List Instr} {rest : State → State} {s t : State} (hs : faulted s = false)
    (h : runUnitsThen units rest s = .next t) :
    ∃ u, Emitted units s u ∧
      ((u.faultOutOverflow = true ∧ t = u) ∨ (u.faultOutOverflow = false ∧ t = rest u)) := by
  induction units generalizing s with
  | nil =>
    rw [runUnitsThen_nil rest s hs] at h
    injection h with h
    exact ⟨s, Emitted.nil s, Or.inr ⟨by simp_all [faulted], h.symm⟩⟩
  | cons i is ih =>
    obtain ⟨m, hr, ⟨hfit, h⟩ | ⟨hov, rfl⟩⟩ := runUnitsThen_cons_next i is rest s t h
    · have h1 := emitted_stored i s m hr hfit
      have hn : faulted (unitAfter i (stored s m (encode s.cfg (shortLiteral s) i))) = false := by
        rw [faulted_unitAfter, faulted_stored, hs]
      obtain ⟨u, h2, ht⟩ := ih hn h
      exact ⟨u, h1.cons (h1.faulted_eq hs ▸ hn) h2, ht⟩
    · exact ⟨_, (emitted_overflowed i s m hr hov).cons_of_overflow rfl, Or.inl ⟨rfl, rfl⟩⟩

/-- A unit fits, or it overflows: then the run counter stays and at most the unit's bytes are written (R203). -/
theorem exec_fits_or_overflows {i : Instr} {s t : State} (h : exec i s = .next t) :
    t.faultOutOverflow = false ∨
    (t.faultOutOverflow = true ∧ t.run = s.run ∧ t.p.toNat ≤ s.p.toNat + unitLength (shortLiteral s) i) := by
  obtain ⟨m, ⟨hf, -⟩, ⟨-, rfl⟩ | ⟨hov, rfl⟩⟩ := exec_next i s t h
  · have hn := (faulted_unitAfter i (stored s m (encode s.cfg (shortLiteral s) i))).trans hf
    simp only [faulted, Bool.or_eq_false_iff] at hn
    exact Or.inl hn.1
  · have hp := overflowed_p_toNat s m (encode s.cfg (shortLiteral s) i)
    have hpos := unitLength_pos (shortLiteral s) i
    exact Or.inr ⟨rfl, rfl, by omega⟩

/-- Settles O9: a unit stores its own bytes only, and RUN alone writes the run counter, where it does not overflow. -/
theorem unitFrame : Obligations.UnitFrame := by
  intro i s t h
  have he := emitted_of_exec h
  have hov := exec_fits_or_overflows h
  refine ⟨?_, fun hi => he.run_eq ?_, ?_, fun a ha => he.outByte_outside a (ha.imp id fun ha => ?_)⟩
  · obtain ⟨_, _, _, _, rfl⟩ := he.frame
    rfl
  · rw [flushes_singleton]
    exact fun ⟨n, hn⟩ => hi n hn
  · rintro n rfl
    refine ⟨fun hn => he.cleared hn ⟨n, List.mem_singleton_self _⟩, fun ht => ?_⟩
    exact (hov.resolve_left (by simp [ht])).2.1
  · rcases hov with hn | ⟨-, -, hle⟩
    · have hlen := he.length hn
      rw [unitsLength_singleton] at hlen
      omega
    · omega

/-! ### What a pixel selects -/

/-- What the strategies have in common: before its units are written, `px` leaves `v`, and `units` are to follow (R150,
R160, R180). -/
structure Selected (px : Pixel) (s v : State) (units : List Instr) : Prop where
  frame : ∃ r c, v = { s with run := r, cache := c }
  cacheKept : s.sel ≠ selCache → v.cache = s.cache
  /-- RUN alone touches the run counter. -/
  runKept : s.sel ≠ selRun → v.run = s.run ∧ ¬ flushes units
  /-- RUN flushes, or has nothing pending, or counts on: below 62 and before the last pixel (R150, R155). -/
  pending : s.sel = selRun →
    (flushes units ∧ (v.run = s.run ∨ v.run = s.run + 1#6)) ∨ (v.run = s.run ∧ s.run = 0#6) ∨
    (v.run = s.run + 1#6 ∧ runFull v.run = false ∧ lastPixel s = false)
  /-- A pixel without a unit is counted. -/
  counted : units = [] → v.run = s.run + 1#6

theorem Selected.p_eq {px : Pixel} {s v : State} {units : List Instr} (h : Selected px s v units) : v.p = s.p := by
  obtain ⟨_, _, rfl⟩ := h.frame
  rfl

theorem Selected.faulted_eq {px : Pixel} {s v : State} {units : List Instr} (h : Selected px s v units) :
    faulted v = faulted s := by
  obtain ⟨_, _, rfl⟩ := h.frame
  rfl

/-- RUN's own writes touch the run counter only. -/
theorem Selected.of_selRun {px : Pixel} {s v : State} {units : List Instr} (hs : s.sel = selRun)
    (hframe : ∃ r, v = { s with run := r })
    (hpending : (flushes units ∧ (v.run = s.run ∨ v.run = s.run + 1#6)) ∨ (v.run = s.run ∧ s.run = 0#6) ∨
      (v.run = s.run + 1#6 ∧ runFull v.run = false ∧ lastPixel s = false))
    (hcounted : units = [] → v.run = s.run + 1#6) : Selected px s v units := by
  obtain ⟨r, rfl⟩ := hframe
  exact ⟨⟨r, _, rfl⟩, fun _ => rfl, fun hne => absurd hs hne, fun _ => hpending, hcounted⟩

theorem selected_run (px : Pixel) (s : State) (hs : s.sel = selRun) :
    Selected px s (runSelect px (lastPixel s) s).1 (runSelect px (lastPixel s) s).2 := by
  have hflush : ∀ n is, flushes (.run n :: is) := fun n is => ⟨n, List.mem_cons_self⟩
  rcases runSelect_cases px (lastPixel s) s with ⟨-, hfull, hlast, h⟩ | ⟨-, -, h⟩ | ⟨-, hrun, h⟩ | ⟨-, -, h⟩ <;> rw [h]
  · exact .of_selRun hs ⟨_, rfl⟩ (Or.inr (Or.inr ⟨rfl, hfull, hlast⟩)) fun _ => rfl
  · exact .of_selRun hs ⟨_, rfl⟩ (Or.inl ⟨hflush _ _, Or.inr rfl⟩) fun _ => rfl
  · exact .of_selRun hs ⟨_, rfl⟩ (Or.inr (Or.inl ⟨rfl, hrun⟩)) fun hn => by cases hn
  · exact .of_selRun hs ⟨_, rfl⟩ (Or.inl ⟨hflush _ _, Or.inl rfl⟩) fun hn => by cases hn

theorem not_flushes_deltaUnit (px prev : Pixel) : ¬ flushes [deltaUnit px prev] := by
  rw [flushes_singleton]
  rintro ⟨n, hn⟩
  simp only [deltaUnit] at hn
  split at hn
  · cases hn
  · split at hn
    · cases hn
    · split at hn <;> cases hn

theorem selected_delta (px : Pixel) (s : State) (hs : s.sel = selDelta) : Selected px s s [deltaUnit px s.prev] where
  frame := ⟨_, _, rfl⟩
  cacheKept _ := rfl
  runKept _ := ⟨rfl, not_flushes_deltaUnit px s.prev⟩
  pending h := absurd (hs.symm.trans h) (by decide)
  counted h := by cases h

theorem selected_cache (px : Pixel) (s : State) (hs : s.sel = selCache) :
    Selected px s (cacheSelect px s).1 (cacheSelect px s).2 := by
  have hne : s.sel ≠ selRun := by rw [hs]; decide
  rcases cacheSelect_cases px s with ⟨-, h⟩ | ⟨-, h⟩ <;> rw [h]
  · exact ⟨⟨_, _, rfl⟩, fun _ => rfl, fun _ => ⟨rfl, by simp [flushes]⟩, fun h => absurd h hne, fun h => by cases h⟩
  · exact ⟨⟨_, _, rfl⟩, fun h => absurd hs h, fun _ => ⟨rfl, by simp [flushes]⟩, fun h => absurd h hne,
      fun h => by cases h⟩

/-- A pixel step records an overrun, or runs what its strategy selects for the pixel (R106). -/
theorem pixelStep_selected {s t : State} (h : pixelStep s = .next t) :
    (fetchPixel s s.pos = none ∧ t = raiseInOverrun s) ∨
    ∃ px v units, fetchPixel s s.pos = some px ∧ Selected px s v units ∧
      runUnitsThen units (retire px) v = .next t := by
  rcases pixelStep_cases s t h with h | ⟨px, hpx, ⟨hsel, hrun⟩ | ⟨hsel, hrun⟩ | ⟨hsel, hrun⟩⟩
  · exact Or.inl h
  · exact Or.inr ⟨px, _, _, hpx, selected_run px s hsel, hrun⟩
  · exact Or.inr ⟨px, _, _, hpx, selected_delta px s hsel, hrun⟩
  · exact Or.inr ⟨px, _, _, hpx, selected_cache px s hsel, hrun⟩

/-- The same, with what the units do: unless they overflowed, the pixel is retired (R107, R203). -/
theorem pixelStep_next {s t : State} (hs : faulted s = false) (h : pixelStep s = .next t) :
    (fetchPixel s s.pos = none ∧ t = raiseInOverrun s) ∨
    ∃ px v units u, fetchPixel s s.pos = some px ∧ Selected px s v units ∧ Emitted units v u ∧
      ((u.faultOutOverflow = true ∧ t = u) ∨ (u.faultOutOverflow = false ∧ t = retire px u)) := by
  rcases pixelStep_selected h with h | ⟨px, v, units, hpx, hsel, hrun⟩
  · exact Or.inl h
  · obtain ⟨u, hu, ht⟩ := emitted_of_runUnitsThen (hsel.faulted_eq.trans hs) hrun
    exact Or.inr ⟨px, v, units, u, hpx, hsel, hu, ht⟩

theorem not_flushes_header (s : State) : ¬ flushes [headerUnit s] := by simp [flushes, headerUnit]

theorem not_flushes_endMarker : ¬ flushes [Instr.endMarker] := by simp [flushes]

/-! ### The registers a step writes -/

/-- The registers, buffers and parameters that only a START writes, and the host's coming moves. -/
def SameCommand (s t : State) : Prop :=
  t.sel = s.sel ∧ t.present = s.present ∧ t.width = s.width ∧ t.height = s.height ∧ t.channels = s.channels ∧
    t.colorspace = s.colorspace ∧ t.inMem = s.inMem ∧ t.inLen = s.inLen ∧ t.allocOk = s.allocOk ∧
    t.refused = s.refused ∧ t.cfg = s.cfg ∧ t.freeCount = s.freeCount ∧ t.host = s.host

/-- The writers of R21-R34, phase by phase. -/
structure WritersOf (s t : State) : Prop where
  command : SameCommand s t
  sizes : s.phase ≠ .alloc → t.bound = s.bound ∧ t.pxLen = s.pxLen
  scan : s.phase ≠ .pixels → t.pos = s.pos ∧ t.prev = s.prev ∧ t.faultInOverrun = s.faultInOverrun
  run : s.phase ≠ .pixels ∨ s.sel ≠ selRun → t.run = s.run
  cache : s.phase ≠ .pixels ∨ s.sel ≠ selCache → t.cache = s.cache
  outLen : s.phase ≠ .footer → t.outLen = s.outLen
  err : s.phase ≠ .validate → s.phase ≠ .alloc → t.err = s.err
  bytes : s.phase ≠ .header → s.phase ≠ .pixels → s.phase ≠ .footer →
    t.p = s.p ∧ t.faultOutOverflow = s.faultOutOverflow ∧ (s.phase ≠ .alloc → t.out = s.out)

theorem sameCommand_refl (s : State) : SameCommand s s := ⟨rfl, rfl, rfl, rfl, rfl, rfl, rfl, rfl, rfl, rfl, rfl, rfl, rfl⟩

theorem WritersOf.refl (s : State) : WritersOf s s :=
  ⟨sameCommand_refl s, fun _ => ⟨rfl, rfl⟩, fun _ => ⟨rfl, rfl, rfl⟩, fun _ => rfl, fun _ => rfl, fun _ => rfl,
    fun _ _ => rfl, fun _ _ _ => ⟨rfl, rfl, fun _ => rfl⟩⟩

theorem validateStep_cases (s : State) :
    (invalid s = true ∧ validateStep s = failWith .invalidDescriptor s) ∨
    (invalid s = false ∧ validateStep s = enterPhase .alloc s) := by
  unfold validateStep
  cases invalid s <;> simp

theorem allocStep_cases (s : State) :
    (s.allocOk = true ∧ allocStep s = enterPhase .header (allocateOut (computeSizes s))) ∨
    (s.allocOk = false ∧ allocStep s = failWith .allocationFailure (computeSizes s)) := by
  unfold allocStep
  cases h : s.allocOk <;> simp [h]

theorem writersOf_validateStep (s : State) (hp : s.phase = .validate) : WritersOf s (validateStep s) := by
  rcases validateStep_cases s with ⟨-, h⟩ | ⟨-, h⟩ <;> rw [h] <;> constructor <;> simp [hp, SameCommand]

theorem writersOf_allocStep (s : State) (hp : s.phase = .alloc) : WritersOf s (allocStep s) := by
  rcases allocStep_cases s with ⟨-, h⟩ | ⟨-, h⟩ <;> rw [h] <;> constructor <;> simp [hp, SameCommand]

/-- The records: their units leave the run counter alone. -/
theorem WritersOf.of_record {s u : State} {units : List Instr} (hp : s.phase = .header ∨ s.phase = .footer)
    (hn : ¬ flushes units) (he : Emitted units s u) : WritersOf s u := by
  have hrun := he.run_eq hn
  obtain ⟨_, _, _, _, rfl⟩ := he.frame
  rcases hp with hp | hp <;> constructor <;> simp_all [SameCommand]

/-- A pixel: the strategy's own writes and its units. -/
theorem WritersOf.of_pixel {px : Pixel} {s v u : State} {units : List Instr} (hp : s.phase = .pixels)
    (hs : Selected px s v units) (he : Emitted units v u) : WritersOf s u := by
  have hrun : s.sel ≠ selRun → u.run = s.run := fun hne => (he.run_eq (hs.runKept hne).2).trans (hs.runKept hne).1
  have hcache := hs.cacheKept
  obtain ⟨_, _, rfl⟩ := hs.frame
  obtain ⟨_, _, _, _, rfl⟩ := he.frame
  constructor <;> simp_all [SameCommand]

theorem WritersOf.enterPhase {s u : State} (h : WritersOf s u) (ph : Phase) : WritersOf s (enterPhase ph u) :=
  ⟨h.command, h.sizes, h.scan, h.run, h.cache, h.outLen, h.err, h.bytes⟩

theorem WritersOf.retire {s u : State} (h : WritersOf s u) (hp : s.phase = .pixels) (px : Pixel) :
    WritersOf s (retire px u) :=
  ⟨h.command, h.sizes, fun hn => absurd hp hn, h.run, h.cache, h.outLen, h.err, h.bytes⟩

theorem WritersOf.finishCall {s u : State} (h : WritersOf s u) (hp : s.phase = .footer) :
    WritersOf s (finishCall u) :=
  ⟨h.command, h.sizes, h.scan, h.run, h.cache, fun hn => absurd hp hn, h.err, h.bytes⟩

theorem writersOf_raiseInOverrun (s : State) (hp : s.phase = .pixels) : WritersOf s (raiseInOverrun s) := by
  have h := WritersOf.refl s
  exact ⟨h.command, h.sizes, fun hn => absurd hp hn, h.run, h.cache, h.outLen, h.err, h.bytes⟩

theorem writersOf_advance {s t : State} (h : advance s = .next t) : WritersOf s t := by
  obtain ⟨⟨hf, -⟩, ⟨-, rfl⟩ | ⟨hp, rfl⟩ | ⟨hp, rfl⟩ | ⟨hp, h⟩ | ⟨-, -, rfl⟩ | ⟨hp, -, h⟩ | ⟨hp, h⟩⟩ :=
    advance_cases s t h
  · exact WritersOf.refl t
  · exact writersOf_validateStep s hp
  · exact writersOf_allocStep s hp
  · obtain ⟨u, he, ⟨-, rfl⟩ | ⟨-, rfl⟩⟩ := emitted_of_runUnitsThen hf h
    · exact WritersOf.of_record (Or.inl hp) (not_flushes_header s) he
    · exact (WritersOf.of_record (Or.inl hp) (not_flushes_header s) he).enterPhase _
  · exact (WritersOf.refl s).enterPhase _
  · obtain ⟨-, rfl⟩ | ⟨px, v, units, u, -, hs, he, ⟨-, rfl⟩ | ⟨-, rfl⟩⟩ := pixelStep_next hf h
    · exact writersOf_raiseInOverrun s hp
    · exact WritersOf.of_pixel hp hs he
    · exact (WritersOf.of_pixel hp hs he).retire hp px
  · obtain ⟨u, he, ⟨-, rfl⟩ | ⟨-, rfl⟩⟩ := emitted_of_runUnitsThen hf h
    · exact WritersOf.of_record (Or.inr hp) not_flushes_endMarker he
    · exact (WritersOf.of_record (Or.inr hp) not_flushes_endMarker he).finishCall hp

/-- Settles O25, by the phase of the step. -/
theorem onlyNamedWriters : Obligations.OnlyNamedWriters := by
  intro s t moves hsilent h
  rw [step_of_silent s moves hsilent] at h
  have hw := writersOf_advance h
  exact ⟨hw.command, hw.sizes, hw.scan, hw.run, hw.cache, hw.outLen, hw.err, hw.bytes⟩

/-- Settles O23: START touches no mark but REFUSED, which it sets, and the block's own step starts from a state without a
mark. -/
theorem marksAreSticky : Obligations.MarksAreSticky := by
  intro s t h
  rcases step_cases s t h with ⟨cmd, moves, -, rfl⟩ | ⟨moves, hsilent, h⟩
  · rcases startCommand_cases cmd { s with host := moves } with ⟨-, -, h⟩ | ⟨-, h⟩ <;> rw [h] <;> simp
  · obtain ⟨⟨hf, -⟩, -⟩ := advance_cases _ t h
    obtain ⟨-, -, -, -, -, -, -, -, -, hrefused, hcfg, -, -⟩ := (writersOf_advance h).command
    simp only [faulted, Bool.or_eq_false_iff] at hf
    simp [hf, hrefused, hcfg]

/-- Settles O26. -/
theorem powerOn : Obligations.PowerOn := ⟨rfl, rfl, rfl, rfl⟩

/-! ### The cursor -/

/-- P does not decrease, and no byte below it changes. -/
def CursorKept (s t : State) : Prop := s.p.toNat ≤ t.p.toNat ∧ ∀ a, a < s.p.toNat → outByte t a = outByte s a

theorem Emitted.cursorKept {units : List Instr} {s u : State} (h : Emitted units s u) : CursorKept s u :=
  ⟨h.cursor, fun a ha => h.outByte_outside a (Or.inl ha)⟩

theorem cursorKept_of_eq {s t : State} (hp : t.p = s.p) (ho : t.out = s.out) : CursorKept s t := by
  simp [CursorKept, outByte, hp, ho]

theorem cursorKept_advance {s t : State} (halloc : s.phase ≠ .alloc) (h : advance s = .next t) : CursorKept s t := by
  have hw := writersOf_advance h
  obtain ⟨⟨hf, -⟩, ⟨-, rfl⟩ | ⟨hp, -⟩ | ⟨hp, -⟩ | ⟨-, h⟩ | ⟨-, -, rfl⟩ | ⟨-, -, h⟩ | ⟨-, h⟩⟩ := advance_cases s t h
  · exact cursorKept_of_eq rfl rfl
  · obtain ⟨hpp, -, ho⟩ := hw.bytes (by simp [hp]) (by simp [hp]) (by simp [hp])
    exact cursorKept_of_eq hpp (ho halloc)
  · exact absurd hp halloc
  · obtain ⟨u, he, ⟨-, rfl⟩ | ⟨-, rfl⟩⟩ := emitted_of_runUnitsThen hf h
    · exact he.cursorKept
    · exact he.cursorKept
  · exact cursorKept_of_eq rfl rfl
  · obtain ⟨-, rfl⟩ | ⟨px, v, units, u, -, hs, he, ht⟩ := pixelStep_next hf h
    · exact cursorKept_of_eq rfl rfl
    · obtain ⟨_, _, rfl⟩ := hs.frame
      obtain ⟨-, rfl⟩ | ⟨-, rfl⟩ := ht
      · exact he.cursorKept
      · exact he.cursorKept
  · obtain ⟨u, he, ⟨-, rfl⟩ | ⟨-, rfl⟩⟩ := emitted_of_runUnitsThen hf h
    · exact he.cursorKept
    · exact he.cursorKept

/-- Settles O50: bytes are stored at the cursor only, and before ALLOC there is no OUT. -/
theorem cursorMonotone : Obligations.CursorMonotone := by
  intro s t hinv h
  rcases step_cases s t h with ⟨cmd, moves, -, rfl⟩ | ⟨moves, -, h⟩
  · rcases startCommand_cases cmd { s with host := moves } with ⟨hacc, -, h⟩ | ⟨-, h⟩ <;> rw [h]
    · exact Or.inl ⟨rfl, hacc⟩
    · exact Or.inr (Or.inr (cursorKept_of_eq rfl rfl))
  · by_cases halloc : s.phase = .alloc
    · have ho := hinv.outPresent
      rw [halloc] at ho
      exact Or.inr (Or.inl (by simpa [hasOut] using ho))
    · exact Or.inr (Or.inr (cursorKept_advance (s := { s with host := moves }) halloc h))

/-! ### Sizes -/

/-- What an accepted descriptor guarantees (R120, R122). -/
theorem valid_descriptor {s : State} (h : invalid s = false) :
    0 < s.width.toNat ∧ 0 < s.height.toNat ∧ (s.channels = 3#8 ∨ s.channels = 4#8) ∧
      s.height.toNat < s.cfg.maxPixels.toNat / s.width.toNat := by
  simp only [invalid, guardRejects, Bool.or_eq_false_iff, Bool.and_eq_false_iff, decide_eq_false_iff_not,
    BitVec.toNat_udiv] at h
  obtain ⟨⟨⟨⟨⟨-, hw⟩, hh⟩, hc⟩, -⟩, hg⟩ := h
  refine ⟨?_, ?_, hc.imp Decidable.not_not.mp Decidable.not_not.mp, by omega⟩
  · exact Nat.pos_of_ne_zero fun h0 => hw (BitVec.eq_of_toNat_eq h0)
  · exact Nat.pos_of_ne_zero fun h0 => hh (BitVec.eq_of_toNat_eq h0)

theorem channels_toNat {s : State} (h : invalid s = false) : s.channels.toNat = 3 ∨ s.channels.toNat = 4 := by
  obtain ⟨-, -, hc | hc, -⟩ := valid_descriptor h <;> simp [hc]

/-- The guard keeps the image so small that BOUND fits in 32 bits (R123). -/
theorem pixelCount_bounds {s : State} (hcfg : s.cfg.wf = true) (h : invalid s = false) :
    0 < pixelCount s ∧ pixelCount s + 1 ≤ 858993455 := by
  obtain ⟨hw, hh, -, hg⟩ := valid_descriptor h
  refine ⟨Nat.mul_pos hw hh, ?_⟩
  have hmax : s.cfg.maxPixels.toNat ≤ 858993455 := by
    simp only [Config.wf, Bool.and_eq_true, decide_eq_true_eq] at hcfg
    exact hcfg.1.2
  calc pixelCount s + 1 ≤ s.width.toNat * s.height.toNat + s.width.toNat := Nat.add_le_add_left hw _
    _ = (s.height.toNat + 1) * s.width.toNat := by rw [Nat.succ_mul, Nat.mul_comm]
    _ ≤ s.cfg.maxPixels.toNat := (Nat.le_div_iff_mul_le hw).mp hg
    _ ≤ 858993455 := hmax

/-- ALLOC's u32 arithmetic is exact (R123, R124). -/
theorem computeSizes_exact {s : State} (hcfg : s.cfg.wf = true) (h : invalid s = false) :
    (computeSizes s).pxLen.toNat = pixelCount s * s.channels.toNat ∧
      (computeSizes s).bound.toNat = pixelCount s * (s.channels.toNat + 1) + 22 := by
  obtain ⟨-, hn⟩ := pixelCount_bounds hcfg h
  have hwh : (s.width * s.height).toNat = pixelCount s := by
    rw [BitVec.toNat_mul, Nat.mod_eq_of_lt (by rw [pixelCount] at hn; omega), pixelCount]
  simp only [computeSizes_pxLen, computeSizes_bound, BitVec.toNat_add, BitVec.toNat_mul (s.width * s.height), hwh,
    BitVec.toNat_setWidth]
  rcases channels_toNat h with hc | hc <;> simp only [hc, BitVec.toNat_ofNat, Nat.reducePow, Nat.reduceMod, Nat.reduceAdd] <;> omega

theorem invalid_computeSizes (s : State) : invalid (computeSizes s) = invalid s := by
  unfold invalid guardRejects
  rfl

/-! ### The input -/

theorem Memory.read_in_isSome (m : Memory) (addr : Nat) : (Memory.read .IN m addr).isSome = true := by
  induction m with
  | nil => rfl
  | cons c m ih =>
    unfold Memory.read
    split
    · rfl
    · exact ih

theorem memRead_eq_none {s : State} {addr : Word} (h : memRead s addr = none) : s.inLen ≤ addr.toNat := by
  unfold memRead at h
  split at h
  · have := Memory.read_in_isSome s.inMem addr.toNat
    simp [h] at this
  · omega

/-- A fetch fails at one of the pixel's own bytes (R55). -/
theorem fetchPixel_eq_none {s : State} {addr : Word} (h : fetchPixel s addr = none) :
    ∃ k, k < 4 ∧ (k = 3 → s.channels = 4#8) ∧ memRead s (addr + BitVec.ofNat 32 k) = none := by
  unfold fetchPixel at h
  cases h0 : memRead s addr with
  | none => exact ⟨0, by omega, by omega, by simpa using h0⟩
  | some r =>
    cases h1 : memRead s (addr + 1#32) with
    | none => exact ⟨1, by omega, by omega, h1⟩
    | some g =>
      cases h2 : memRead s (addr + 2#32) with
      | none => exact ⟨2, by omega, by omega, h2⟩
      | some b =>
        by_cases hc : s.channels = 4#8
        · cases h3 : memRead s (addr + 3#32) with
          | none => exact ⟨3, by omega, fun _ => hc, h3⟩
          | some a => simp [h0, h1, h2, h3, hc] at h
        · simp [h0, h1, h2, hc] at h

/-- A pixel of three channels is opaque (R55). -/
theorem fetchPixel_alpha {s : State} {addr : Word} {px : Pixel} (h : fetchPixel s addr = some px)
    (hc : s.channels = 3#8) : px.a = 255#8 := by
  unfold fetchPixel at h
  split at h
  · rw [if_neg (by simp [hc])] at h
    injection h with h
    rw [← h]
  · cases h

/-! ### The scan -/

/-- Before the end one whole pixel is left (R25, R106). -/
theorem Inv.pixel_left {s : State} (h : Inv s) (hp : s.phase = .pixels) (hlt : s.pos.toNat < s.pxLen.toNat) :
    s.pos.toNat + s.channels.toNat ≤ s.pxLen.toNat := by
  obtain ⟨-, k, hk⟩ := h.scan (by simp [hp, afterHeader])
  obtain ⟨hpx, -⟩ := h.sizes (by simp [hp, hasOut])
  rw [hk, hpx, Nat.mul_comm (pixelCount s)] at hlt ⊢
  have hlt : k < pixelCount s := Nat.lt_of_mul_lt_mul_left hlt
  calc s.channels.toNat * k + s.channels.toNat = s.channels.toNat * (k + 1) := (Nat.mul_succ _ _).symm
    _ ≤ s.channels.toNat * pixelCount s := Nat.mul_le_mul_left _ hlt

theorem Inv.invalid_eq_false {s : State} (h : Inv s) (hp : s.phase = .pixels) : invalid s = false :=
  h.descriptor (by simp [hp, validated])

/-- A failed fetch means a buffer shorter than PX_LEN (R203). -/
theorem Inv.short_buffer {s : State} (h : Inv s) (hp : s.phase = .pixels) (hlt : s.pos.toNat < s.pxLen.toNat)
    (hnone : fetchPixel s s.pos = none) : s.inLen < s.pxLen.toNat := by
  have hleft := h.pixel_left hp hlt
  have hb := s.pxLen.isLt
  obtain ⟨k, hk4, hk3, hread⟩ := fetchPixel_eq_none hnone
  have hk : k < s.channels.toNat := by
    obtain ⟨-, -, hc | hc, -⟩ := valid_descriptor (h.invalid_eq_false hp)
    · have : k ≠ 3 := fun he => absurd (hc.symm.trans (hk3 he)) (by decide)
      simp only [hc, BitVec.toNat_ofNat]
      omega
    · simp only [hc, BitVec.toNat_ofNat]
      omega
  have hlen := memRead_eq_none hread
  simp only [BitVec.toNat_add, BitVec.toNat_ofNat] at hlen
  omega

/-! ### Every step keeps the invariant -/

theorem Inv.setHost {s : State} (h : Inv s) (moves : List HostMove) : Inv { s with host := moves } :=
  ⟨h.cfg, h.outPresent, h.outCells, h.selLegal, h.errInFail, h.runRange, h.descriptor, h.sizes, h.fresh, h.cursor, h.scan,
    h.scanEnd, h.runOnlyInRun, h.runFlushed, h.alphaFixed, h.overflowAt, h.overrunAt, h.headerWritten, h.result⟩

theorem Inv.refuse {s : State} (h : Inv s) : Inv (refuse s) :=
  ⟨h.cfg, h.outPresent, h.outCells, h.selLegal, h.errInFail, h.runRange, h.descriptor, h.sizes, h.fresh, h.cursor, h.scan,
    h.scanEnd, h.runOnlyInRun, h.runFlushed, h.alphaFixed, h.overflowAt, h.overrunAt, h.headerWritten, h.result⟩

theorem Unmarked.flags {s : State} (h : Unmarked s) : s.faultOutOverflow = false ∧ s.faultInOverrun = false := by
  simpa [faulted] using h.1

/-- An accepted START seeds the call (R38, R100). -/
theorem Inv.start {s : State} (h : Inv s) {cmd : StartCmd} (hacc : accepts s = true) (hsel : legalSel cmd.sel = true) :
    Inv (seedCall (latchCommand cmd s)) := by
  obtain ⟨hov, hin⟩ := ((accepts_iff s).mp hacc).2.flags
  constructor <;> simp [hasOut, validated, beforeBytes, afterHeader, afterPixels, hov, hin, hsel, h.cfg]

/-- VALIDATE rejects the descriptor or enters ALLOC (R102). -/
theorem Inv.validate {s : State} (h : Inv s) (hu : Unmarked s) (hp : s.phase = .validate) : Inv (validateStep s) := by
  obtain ⟨hov, hin⟩ := hu.flags
  obtain ⟨hpp, hpos, hrun, hprev⟩ := h.fresh (by simp [hp, beforeBytes])
  have hout : s.out = none := by simpa [hp, hasOut] using h.outPresent
  have herr : s.err = .none := by simpa [hp] using h.errInFail
  have hsel := h.selLegal (by simp [hp])
  rcases validateStep_cases s with ⟨-, hs⟩ | ⟨hvalid, hs⟩ <;> rw [hs] <;> constructor
  case inr.descriptor => exact fun _ => hvalid
  all_goals
    simp [hasOut, validated, beforeBytes, afterHeader, afterPixels, hov, hin, hsel, h.cfg, hout, herr, hpp, hpos, hrun,
      hprev, seedPixel]

/-- ALLOC computes the sizes and creates OUT, or fails the call (R103). -/
theorem Inv.alloc {s : State} (h : Inv s) (hu : Unmarked s) (hp : s.phase = .alloc) : Inv (allocStep s) := by
  obtain ⟨hov, hin⟩ := hu.flags
  obtain ⟨hpp, hpos, hrun, hprev⟩ := h.fresh (by simp [hp, beforeBytes])
  have hout : s.out = none := by simpa [hp, hasOut] using h.outPresent
  have herr : s.err = .none := by simpa [hp] using h.errInFail
  have hsel := h.selLegal (by simp [hp])
  have hvalid := h.descriptor (by simp [hp, validated])
  rcases allocStep_cases s with ⟨-, hs⟩ | ⟨-, hs⟩ <;> rw [hs] <;> constructor
  case inl.descriptor => exact fun _ => (invalid_computeSizes s).trans hvalid
  case inl.sizes => simpa [pixelCount, hasOut] using computeSizes_exact h.cfg hvalid
  all_goals
    simp [hasOut, validated, beforeBytes, afterHeader, afterPixels, hov, hin, hsel, h.cfg, hout, herr, hpp, hpos, hrun,
      hprev, seedPixel]

/-- HEADER always has room for its bytes, and enters PIXELS (R104). -/
theorem Inv.header {s u : State} (h : Inv s) (hu : Unmarked s) (hp : s.phase = .header)
    (he : Emitted [headerUnit s] s u) : u.faultOutOverflow = false ∧ Inv (enterPhase .pixels u) := by
  obtain ⟨hov, hin⟩ := hu.flags
  obtain ⟨hpp, hpos, hrun, -⟩ := h.fresh (by simp [hp, beforeBytes])
  obtain ⟨hpx, hbound⟩ := h.sizes (by simp [hp, hasOut])
  have hp0 : s.p.toNat = 0 := by simp [hpp]
  have hroom : u.faultOutOverflow = false := by
    rw [← Bool.not_eq_true]
    intro hf
    obtain ⟨hfull, hmissing⟩ := (he.full hf).resolve_left (by simp [hov])
    simp only [unitsLength_singleton, headerUnit, unitLength] at hmissing
    omega
  have hp14 : 14 ≤ u.p.toNat := by
    have hlen := he.length hroom
    simp only [unitsLength_singleton, headerUnit, unitLength] at hlen
    omega
  have hisSome : u.out.isSome = true := by rw [he.out_isSome, h.outPresent, hp]; rfl
  have hcells := he.cells h.outCells
  have hrun' := he.run_eq (not_flushes_header s)
  have hwithin := he.within (h.cursor (by simp [hp, hasOut]))
  refine ⟨hroom, ?_⟩
  obtain ⟨o, p, f, r, rfl⟩ := he.frame
  exact
    { cfg := h.cfg
      outPresent := hisSome
      outCells := hcells
      selLegal := fun _ => h.selLegal (by simp [hp])
      errInFail := by simpa [hp] using h.errInFail
      runRange := by simp only at hrun'; simp [hrun', hrun]
      descriptor := fun _ => h.descriptor (by simp [hp, validated])
      sizes := fun _ => ⟨hpx, hbound⟩
      fresh := fun hb => by cases hb
      cursor := fun _ => hwithin
      scan := fun _ => by simp [hpos]
      scanEnd := fun hb => by cases hb
      runOnlyInRun := fun _ _ => hrun'.trans hrun
      runFlushed := fun _ _ => hrun'.trans hrun
      alphaFixed := fun _ => h.alphaFixed (by simp [hp, validated])
      overflowAt := fun hf => absurd (hroom.symm.trans hf) (by decide)
      overrunAt := fun hf => absurd (hin.symm.trans hf) (by decide)
      headerWritten := fun _ => ⟨hp14, fun hne => absurd hpos hne⟩
      result := fun hb => by cases hb }

/-- At the end of the scan the footer follows (R105). -/
theorem Inv.endTest {s : State} (h : Inv s) (hu : Unmarked s) (hp : s.phase = .pixels) (hend : s.pos = s.pxLen) :
    Inv (enterPhase .footer s) := by
  obtain ⟨hov, hin⟩ := hu.flags
  exact
    { cfg := h.cfg
      outPresent := h.outPresent.trans (by rw [hp]; rfl)
      outCells := h.outCells
      selLegal := fun _ => h.selLegal (by simp [hp])
      errInFail := by simpa [hp] using h.errInFail
      runRange := h.runRange
      descriptor := fun _ => h.descriptor (by simp [hp, validated])
      sizes := fun _ => h.sizes (by simp [hp, hasOut])
      fresh := fun hb => by cases hb
      cursor := fun _ => h.cursor (by simp [hp, hasOut])
      scan := fun _ => h.scan (by simp [hp, afterHeader])
      scanEnd := fun _ => hend
      runOnlyInRun := fun _ => h.runOnlyInRun (by simp [hp])
      runFlushed := fun _ => h.runFlushed (by simp [hp, afterHeader])
      alphaFixed := fun _ => h.alphaFixed (by simp [hp, validated])
      overflowAt := fun hf => absurd (hov.symm.trans hf) (by decide)
      overrunAt := fun hf => absurd (hin.symm.trans hf) (by decide)
      headerWritten := fun _ => h.headerWritten (by simp [hp, afterHeader])
      result := fun hb => by cases hb }

/-- A failed fetch records IN_OVERRUN (R203). -/
theorem Inv.overrun {s : State} (h : Inv s) (hp : s.phase = .pixels) (hlt : s.pos.toNat < s.pxLen.toNat)
    (hnone : fetchPixel s s.pos = none) : Inv (raiseInOverrun s) :=
  ⟨h.cfg, h.outPresent, h.outCells, h.selLegal, h.errInFail, h.runRange, h.descriptor, h.sizes, h.fresh, h.cursor, h.scan,
    h.scanEnd, h.runOnlyInRun, h.runFlushed, h.alphaFixed, h.overflowAt, fun _ => ⟨hp, h.short_buffer hp hlt hnone⟩,
    h.headerWritten, h.result⟩

/-- What the invariant asks of the run counter after the units of a step from `s`. -/
structure RunKept (s u : State) : Prop where
  range : u.run.toNat ≤ 62 ∧ (u.faultOutOverflow = false → u.run.toNat ≤ 61)
  onlyInRun : s.sel ≠ selRun → u.run = 0#6
  flushed : s.pos = s.pxLen → u.run = 0#6
  written : u.run = 0#6 → s.run = 0#6 ∨ s.p.toNat < u.p.toNat

/-- The units of a PIXELS or FOOTER step, before the rest of the step, whether or not they overflowed: `v` is what the
strategy's own writes leave (R106, R203). -/
theorem Inv.emit {s v u : State} {units : List Instr} (h : Inv s) (hp : s.phase = .pixels ∨ s.phase = .footer)
    (hv : ∃ r c, v = { s with run := r, cache := c }) (he : Emitted units v u) (hr : RunKept s u) : Inv u := by
  obtain ⟨r, c, rfl⟩ := hv
  have hout : hasOut s.phase = true := by rcases hp with hp | hp <;> simp [hp, hasOut]
  have hisSome : u.out.isSome = hasOut s.phase := he.out_isSome.trans h.outPresent
  have hcells := he.cells h.outCells
  have hcursor := he.cursor
  have hwithin := he.within (h.cursor hout)
  have hfull : u.faultOutOverflow = true → u.p = s.bound := fun hf => by
    apply BitVec.eq_of_toNat_eq
    rcases he.full hf with hs | ⟨hroom, -⟩
    · have := congrArg BitVec.toNat (h.overflowAt hs).2
      simp only at hcursor hwithin
      omega
    · exact Nat.le_antisymm hwithin hroom
  obtain ⟨o, p, f, r', rfl⟩ := he.frame
  exact
    { cfg := h.cfg
      outPresent := hisSome
      outCells := hcells
      selLegal := h.selLegal
      errInFail := h.errInFail
      runRange := hr.range
      descriptor := h.descriptor
      sizes := h.sizes
      fresh := fun hb => by rcases hp with hp | hp <;> simp [hp, beforeBytes] at hb
      cursor := fun _ => hwithin
      scan := h.scan
      scanEnd := h.scanEnd
      runOnlyInRun := fun _ => hr.onlyInRun
      runFlushed := fun _ => hr.flushed
      alphaFixed := h.alphaFixed
      overflowAt := fun hf => ⟨hp, hfull hf⟩
      overrunAt := h.overrunAt
      headerWritten := fun ha => by
        obtain ⟨h14, h15⟩ := h.headerWritten ha
        refine ⟨Nat.le_trans h14 hcursor, fun hpos h0 => ?_⟩
        rcases hr.written h0 with hs | hlt
        · exact Nat.le_trans (h15 hpos hs) hcursor
        · exact Nat.lt_of_le_of_lt h14 hlt
      result := fun hb => by rcases hp with hp | hp <;> simp [hp] at hb }

theorem toNat_add_one {n : BitVec 6} (h : n.toNat ≤ 61) : (n + 1#6).toNat = n.toNat + 1 := by
  rw [BitVec.toNat_add, BitVec.toNat_ofNat]
  omega

theorem Selected.run_cases {px : Pixel} {s v : State} {units : List Instr} (h : Selected px s v units) :
    v.run = s.run ∨ v.run = s.run + 1#6 := by
  by_cases hsel : s.sel = selRun
  · rcases h.pending hsel with ⟨-, h⟩ | ⟨h, -⟩ | ⟨h, -, -⟩
    · exact h
    · exact Or.inl h
    · exact Or.inr h
  · exact Or.inl (h.runKept hsel).1

/-- A run left pending after a pixel without an overflow is below 62, and the pixel is not the last (R150, R155). -/
theorem Selected.pending_run {px : Pixel} {s v u : State} {units : List Instr} (hs : Selected px s v units)
    (he : Emitted units v u) (hf : u.faultOutOverflow = false) (hsel : s.sel = selRun) :
    u.run = 0#6 ∨ (u.run = s.run + 1#6 ∧ u.run ≠ 62#6 ∧ lastPixel s = false) := by
  rcases hs.pending hsel with ⟨hfl, -⟩ | ⟨hv, h0⟩ | ⟨hv, hfull, hlast⟩
  · exact Or.inl (he.cleared hf hfl)
  · rcases he.kept with hk | ⟨-, hk, -⟩
    · exact Or.inl (hk.trans (hv.trans h0))
    · exact Or.inl hk
  · rcases he.kept with hk | ⟨-, hk, -⟩
    · exact Or.inr ⟨hk.trans hv, by simpa [hk, runFull] using hfull, hlast⟩
    · exact Or.inl hk

/-- Outside RUN no run is ever pending (R156). -/
theorem Inv.run_eq_zero {px : Pixel} {s v u : State} {units : List Instr} (h : Inv s) (hp : s.phase = .pixels)
    (hs : Selected px s v units) (he : Emitted units v u) (hsel : s.sel ≠ selRun) : u.run = 0#6 := by
  obtain ⟨hv, hn⟩ := hs.runKept hsel
  rw [he.run_eq hn, hv, h.runOnlyInRun (by simp [hp]) hsel]

/-- The run counter after the units of a pixel. -/
theorem runKept_pixel {px : Pixel} {s v u : State} {units : List Instr} (h : Inv s) (hu : Unmarked s)
    (hp : s.phase = .pixels) (hlt : s.pos.toNat < s.pxLen.toNat) (hs : Selected px s v units)
    (he : Emitted units v u) : RunKept s u := by
  have h61 := h.runRange.2 hu.flags.1
  have honly := h.run_eq_zero hp hs he
  have hcases : (u.run = s.run ∨ u.run = s.run + 1#6) ∨ (u.run = 0#6 ∧ s.p.toNat < u.p.toNat) := by
    rcases he.kept with hk | ⟨-, hk, hpu⟩
    · exact Or.inl (hk ▸ hs.run_cases)
    · exact Or.inr ⟨hk, hs.p_eq ▸ hpu⟩
  have hbump := toNat_add_one h61
  have h62 : u.run.toNat ≤ 62 := by
    rcases hcases with (hr | hr) | ⟨hr, -⟩ <;> rw [hr]
    · omega
    · omega
    · decide
  refine ⟨⟨h62, fun hf => ?_⟩, honly, fun heq => absurd hlt (by simp [heq]), fun h0 => ?_⟩
  · by_cases hsel : s.sel = selRun
    · rcases hs.pending_run he hf hsel with hr | ⟨-, hne, -⟩
      · simp [hr]
      · have : u.run.toNat ≠ 62 := fun heq => hne (BitVec.eq_of_toNat_eq heq)
        omega
    · simp [honly hsel]
  · rcases hcases with (hr | hr) | ⟨-, hlt⟩
    · exact Or.inl (hr.symm.trans h0)
    · simp [← hr, h0] at hbump
    · exact Or.inr hlt

/-- A pixel writes a byte or leaves a run pending (R70). -/
theorem Inv.written_of_pixel {px : Pixel} {s v u : State} {units : List Instr} (h : Inv s) (hu : Unmarked s)
    (hp : s.phase = .pixels) (hs : Selected px s v units) (he : Emitted units v u) (hf : u.faultOutOverflow = false)
    (h0 : u.run = 0#6) : 15 ≤ u.p.toNat := by
  obtain ⟨h14, -⟩ := h.headerWritten (by simp [hp, afterHeader])
  have hlen := he.length hf
  rw [hs.p_eq] at hlen
  by_cases hn : units = []
  · have hrun : u.run = s.run + 1#6 := by
      rw [he.run_eq (by simp [hn, flushes]), hs.counted hn]
    have hbump := toNat_add_one (h.runRange.2 hu.flags.1)
    simp [← hrun, h0] at hbump
  · have := unitsLength_pos (shortLiteral v) hn
    omega

/-- A pixel step that did not overflow retires its pixel (R106, R107). -/
theorem Inv.retire {px : Pixel} {s v u : State} {units : List Instr} (h : Inv s) (hu : Unmarked s)
    (hp : s.phase = .pixels) (hlt : s.pos.toNat < s.pxLen.toNat) (hpx : fetchPixel s s.pos = some px)
    (hs : Selected px s v units) (he : Emitted units v u) (hf : u.faultOutOverflow = false) (hi : Inv u) :
    Inv (retire px u) := by
  have hleft := h.pixel_left hp hlt
  have hb := s.pxLen.isLt
  obtain ⟨-, hdvd⟩ := h.scan (by simp [hp, afterHeader])
  have hpos : (s.pos + s.channels.setWidth 32).toNat = s.pos.toNat + s.channels.toNat := by
    rw [BitVec.toNat_add, BitVec.toNat_setWidth]
    omega
  have hlast : s.pos + s.channels.setWidth 32 = s.pxLen → u.run = 0#6 := fun heq => by
    by_cases hsel : s.sel = selRun
    · have hl : lastPixel s = true := decide_eq_true (by rw [← heq, BitVec.add_sub_cancel])
      exact (hs.pending_run he hf hsel).resolve_right fun ⟨_, _, hn⟩ => absurd (hl.symm.trans hn) (by decide)
    · exact h.run_eq_zero hp hs he hsel
  have hbytes := h.written_of_pixel hu hp hs he hf
  have halpha := fetchPixel_alpha hpx
  obtain ⟨_, _, rfl⟩ := hs.frame
  obtain ⟨_, _, _, _, rfl⟩ := he.frame
  exact
    { cfg := hi.cfg
      outPresent := hi.outPresent
      outCells := hi.outCells
      selLegal := hi.selLegal
      errInFail := hi.errInFail
      runRange := hi.runRange
      descriptor := hi.descriptor
      sizes := hi.sizes
      fresh := fun hb => by simp [hp, beforeBytes] at hb
      cursor := hi.cursor
      scan := fun _ => by
        simp only [retire_pos, retire_pxLen, retire_channels, hpos]
        exact ⟨hleft, (Nat.dvd_add_right hdvd).mpr (Nat.dvd_refl _)⟩
      scanEnd := fun hb => by simp [hp, afterPixels] at hb
      runOnlyInRun := hi.runOnlyInRun
      runFlushed := fun _ => hlast
      alphaFixed := fun _ => halpha
      overflowAt := hi.overflowAt
      overrunAt := hi.overrunAt
      headerWritten := fun ha => ⟨(hi.headerWritten ha).1, fun _ => hbytes⟩
      result := fun hb => by simp [hp] at hb }

/-- A finished scan has classified a pixel, so that P is past the header and one byte more (R127). -/
theorem Inv.stream_not_empty {s : State} (h : Inv s) (hp : s.phase = .footer) : 15 ≤ s.p.toNat := by
  obtain ⟨-, h15⟩ := h.headerWritten (by simp [hp, afterHeader])
  have hend := h.scanEnd (by simp [hp, afterPixels])
  obtain ⟨hpx, -⟩ := h.sizes (by simp [hp, hasOut])
  have hvalid := h.descriptor (by simp [hp, validated])
  obtain ⟨hcount, -⟩ := pixelCount_bounds h.cfg hvalid
  have hc : 0 < s.channels.toNat := by rcases channels_toNat hvalid with hc | hc <;> omega
  have hpos := Nat.mul_pos hcount hc
  refine h15 (fun h0 => ?_) (h.runFlushed (by simp [hp, afterHeader]) hend)
  rw [← hpx, ← hend, h0] at hpos
  exact absurd hpos (by decide)

/-- FOOTER writes eight bytes and ends the call (R108, R109, R127). -/
theorem Inv.finish {s u : State} (h : Inv s) (hu : Unmarked s) (hp : s.phase = .footer)
    (he : Emitted [.endMarker] s u) (hf : u.faultOutOverflow = false) (hi : Inv u) : Inv (finishCall u) := by
  have hin := hu.flags.2
  have h15 := h.stream_not_empty hp
  have h23 : 23 ≤ u.p.toNat := by
    have hlen := he.length hf
    simp only [unitsLength_singleton, unitLength] at hlen
    omega
  obtain ⟨_, _, _, _, rfl⟩ := he.frame
  exact
    { cfg := hi.cfg
      outPresent := hi.outPresent.trans (by simp [hp, hasOut])
      outCells := hi.outCells
      selLegal := fun _ => hi.selLegal (by simp [hp])
      errInFail := by simpa [hp] using hi.errInFail
      runRange := hi.runRange
      descriptor := fun _ => hi.descriptor (by simp [hp, validated])
      sizes := fun _ => hi.sizes (by simp [hp, hasOut])
      fresh := fun hb => by cases hb
      cursor := fun _ => hi.cursor (by simp [hp, hasOut])
      scan := fun _ => hi.scan (by simp [hp, afterHeader])
      scanEnd := fun _ => hi.scanEnd (by simp [hp, afterPixels])
      runOnlyInRun := fun _ => hi.runOnlyInRun (by simp [hp])
      runFlushed := fun _ => hi.runFlushed (by simp [hp, afterHeader])
      alphaFixed := fun _ => hi.alphaFixed (by simp [hp, validated])
      overflowAt := fun hov => absurd (hf.symm.trans hov) (by decide)
      overrunAt := fun hov => absurd (hin.symm.trans hov) (by decide)
      headerWritten := fun _ => hi.headerWritten (by simp [hp, afterHeader])
      result := fun _ => ⟨rfl, h23⟩ }

/-- FOOTER leaves the run counter alone, and none is pending there (R155). -/
theorem runKept_footer {s u : State} (h : Inv s) (hp : s.phase = .footer) (he : Emitted [.endMarker] s u) :
    RunKept s u := by
  have hs := h.runFlushed (by simp [hp, afterHeader]) (h.scanEnd (by simp [hp, afterPixels]))
  have h0 : u.run = 0#6 := (he.run_eq not_flushes_endMarker).trans hs
  exact ⟨by simp [h0], fun _ => h0, fun _ => h0, fun _ => Or.inl hs⟩

theorem Inv.advance {s t : State} (h : Inv s) (hstep : advance s = .next t) : Inv t := by
  obtain ⟨hu, ⟨-, rfl⟩ | ⟨hp, rfl⟩ | ⟨hp, rfl⟩ | ⟨hp, hrun⟩ | ⟨hp, hend, rfl⟩ | ⟨hp, hlt, hpixel⟩ | ⟨hp, hrun⟩⟩ :=
    advance_cases s t hstep
  · exact h
  · exact h.validate hu hp
  · exact h.alloc hu hp
  · obtain ⟨u, he, ht⟩ := emitted_of_runUnitsThen hu.1 hrun
    obtain ⟨hroom, hi⟩ := h.header hu hp he
    obtain ⟨hf, -⟩ | ⟨-, rfl⟩ := ht
    · exact absurd (hroom.symm.trans hf) (by decide)
    · exact hi
  · exact h.endTest hu hp hend
  · obtain ⟨hnone, rfl⟩ | ⟨px, v, units, u, hpx, hs, he, ht⟩ := pixelStep_next hu.1 hpixel
    · exact h.overrun hp hlt hnone
    · have hi : Inv u := h.emit (Or.inl hp) hs.frame he (runKept_pixel h hu hp hlt hs he)
      obtain ⟨-, rfl⟩ | ⟨hf, rfl⟩ := ht
      · exact hi
      · exact h.retire hu hp hlt hpx hs he hf hi
  · obtain ⟨u, he, ht⟩ := emitted_of_runUnitsThen hu.1 hrun
    have hi : Inv u := h.emit (Or.inr hp) ⟨_, _, rfl⟩ he (runKept_footer h hp he)
    obtain ⟨-, rfl⟩ | ⟨hf, rfl⟩ := ht
    · exact hi
    · exact h.finish hu hp he hf hi

/-- Settles O46: a START seeds a call or is refused, and each phase's own step keeps the invariant. -/
theorem invariantKept : Obligations.InvariantKept := by
  intro s t h hstep
  rcases step_cases s t hstep with ⟨cmd, moves, -, rfl⟩ | ⟨moves, -, hadv⟩
  · rcases startCommand_cases cmd { s with host := moves } with ⟨hacc, hsel, hc⟩ | ⟨-, hc⟩ <;> rw [hc]
    · exact (h.setHost moves).start hacc hsel
    · exact (h.setHost moves).refuse
  · exact (h.setHost moves).advance hadv

/-! ### Power-on -/

theorem inv_reset : Inv State.reset := by
  constructor
  case outCells => exact fun m hm => by cases hm
  all_goals decide

theorem capacity_reset : Capacity State.reset := ⟨by decide, by decide, by decide⟩

theorem streamFramed_reset : StreamFramed State.reset := by
  constructor <;> intro hb <;> cases hb

theorem buffersCanonical_reset : BuffersCanonical State.reset := ⟨rfl, fun m hm => by cases hm⟩

/-- Settles O45. -/
theorem invariantAtReset : Obligations.InvariantAtReset :=
  ⟨inv_reset, capacity_reset, streamFramed_reset, buffersCanonical_reset⟩

end Sys2Proof.Machine

/-! PROOFS. The memory's statements (spec/20_memory.md): where a unit stops, the pixel fetch, the canonical form of both
buffers, and the result the host reads. -/
namespace Sys2Proof.Machine

/-! ### Where a unit stops -/

theorem writeUnit_of_faulted (bytes : List Byte) (after : State → State) {s : State} (h : faulted s = true) :
    writeUnit bytes after s = .fault .afterFault := by
  simp [writeUnit, h]

theorem writeUnit_of_refused (bytes : List Byte) (after : State → State) {s : State} (hf : faulted s = false)
    (hr : s.refused = true) : writeUnit bytes after s = .fault .afterRefusal := by
  simp [writeUnit, hf, hr]

theorem writeUnit_of_out_absent (bytes : List Byte) (after : State → State) {s : State} (hf : faulted s = false)
    (hr : s.refused = false) (ho : s.out = none) : writeUnit bytes after s = .fault .outAbsent := by
  simp [writeUnit, hf, hr, ho]

/-- Settles O10: every unit is a `writeUnit`, whose three tests come before its bytes. -/
theorem unitStops : Obligations.UnitStops := by
  intro i s
  rw [exec_eq_writeUnit]
  exact ⟨writeUnit_of_faulted _ _, writeUnit_of_refused _ _, writeUnit_of_out_absent _ _,
    fun hf hr ho => ⟨_, writeUnit_of_ready _ _ s hf hr (Option.isSome_iff_ne_none.mpr ho)⟩⟩

/-! ### The pixel fetch -/

theorem memRead_eq_some {s : State} {addr : Word} {v : Byte} :
    memRead s addr = some v ↔ addr.toNat < s.inLen ∧ Memory.read .IN s.inMem addr.toNat = some v := by
  simp [memRead]

/-- A fetched pixel holds the bytes at its offsets; `fetchPixel_alpha` gives the alpha of three channels (R55). -/
theorem fetchPixel_eq_some {s : State} {addr : Word} {px : Pixel} (h : fetchPixel s addr = some px) :
    memRead s addr = some px.r ∧ memRead s (addr + 1#32) = some px.g ∧ memRead s (addr + 2#32) = some px.b ∧
      (s.channels = 4#8 → memRead s (addr + 3#32) = some px.a) := by
  unfold fetchPixel at h
  split at h
  · rename_i r g b hr hg hb
    split at h
    · split at h
      · rename_i a ha
        cases h
        exact ⟨hr, hg, hb, fun _ => ha⟩
      · cases h
    · rename_i hc
      cases h
      exact ⟨hr, hg, hb, fun h4 => absurd h4 hc⟩
  · cases h

/-- The k-th byte of a pixel that lies below 2^32 is at the offset that the u32 sum names. -/
theorem toNat_pixelOffset {pos : Word} {n k : Nat} (hn : pos.toNat + n ≤ 2 ^ 32) (hk : k < n) :
    (pos + BitVec.ofNat 32 k).toNat = pos.toNat + k := by
  rw [BitVec.toNat_add, BitVec.toNat_ofNat]
  omega

theorem memRead_pixelByte {s : State} {pos : Word} {n k : Nat} {v : Byte} (hn : pos.toNat + n ≤ 2 ^ 32) (hk : k < n)
    (h : memRead s (pos + BitVec.ofNat 32 k) = some v) :
    pos.toNat + k < s.inLen ∧ Memory.read .IN s.inMem (pos.toNat + k) = some v :=
  toNat_pixelOffset hn hk ▸ memRead_eq_some.mp h

/-- A pixel that reaches past IN_LEN is not fetched: its last byte is missing (R51). -/
theorem fetchPixel_of_overrun {s : State} {addr : Word} (hc : s.channels = 3#8 ∨ s.channels = 4#8)
    (hn : addr.toNat + s.channels.toNat ≤ 2 ^ 32) (h : s.inLen < addr.toNat + s.channels.toNat) :
    fetchPixel s addr = none := by
  rw [Option.eq_none_iff_forall_ne_some]
  intro px hpx
  obtain ⟨-, -, hb, ha⟩ := fetchPixel_eq_some hpx
  rcases hc with hc | hc <;> rw [hc, BitVec.toNat_ofNat] at h hn
  · have := (memRead_pixelByte hn (by decide) hb).1
    omega
  · have := (memRead_pixelByte hn (by decide) (ha hc)).1
    omega

/-- A pixel that lies below IN_LEN is fetched (R55). -/
theorem fetchPixel_of_within {s : State} {addr : Word} (hc : s.channels = 3#8 ∨ s.channels = 4#8)
    (hn : addr.toNat + s.channels.toNat ≤ 2 ^ 32) (h : addr.toNat + s.channels.toNat ≤ s.inLen) :
    ∃ px, fetchPixel s addr = some px := by
  rw [← Option.ne_none_iff_exists']
  intro hnone
  obtain ⟨k, hk4, hk3, hread⟩ := fetchPixel_eq_none hnone
  have hk : k < s.channels.toNat := by
    rcases hc with hc | hc
    · have : k ≠ 3 := fun he => absurd (hc.symm.trans (hk3 he)) (by decide)
      rw [hc, BitVec.toNat_ofNat]
      omega
    · rwa [hc]
  have := memRead_eq_none hread
  rw [toNat_pixelOffset hn hk] at this
  omega

/-- In PIXELS before the end, the block's step is a pixel step (R106). -/
theorem advance_of_pixels {s : State} (hu : Unmarked s) (hp : s.phase = .pixels) (hlt : s.pos.toNat < s.pxLen.toNat) :
    advance s = pixelStep s := by
  have hne : s.pos ≠ s.pxLen := fun he => by simp [he] at hlt
  simp [advance, pixelsStep, hu.1, hu.2, hp, hne, hlt]

theorem pixelStep_of_overrun {s : State} (h : fetchPixel s s.pos = none) :
    pixelStep s = .next (raiseInOverrun s) := by
  simp [pixelStep, h]

/-- Settles O34: the fetch fails exactly where the pixel's last byte is past IN_LEN. -/
theorem fetchAndOverrun : Obligations.FetchAndOverrun := by
  intro s moves hsilent hu hp hlt hc hn
  refine ⟨fun hover => ?_, fun hin => ?_⟩
  · rw [step_of_silent s moves hsilent, advance_of_pixels (s := { s with host := moves }) hu hp hlt]
    exact pixelStep_of_overrun (s := { s with host := moves }) (fetchPixel_of_overrun hc hn hover)
  · obtain ⟨px, hpx⟩ := fetchPixel_of_within hc hn hin
    obtain ⟨hr, hg, hb, ha⟩ := fetchPixel_eq_some hpx
    have h3 : 3 ≤ s.channels.toNat := by rcases hc with hc | hc <;> simp [hc]
    exact ⟨px, hpx, (memRead_eq_some.mp hr).2, (memRead_pixelByte hn (by omega) hg).2,
      (memRead_pixelByte hn (by omega) hb).2, fun h4 => (memRead_pixelByte hn (by simp [h4]) (ha h4)).2,
      fetchPixel_alpha hpx⟩

/-! ### The canonical form -/

/-- Units store their bytes from the cursor, whatever the rest of the step does to the registers. -/
theorem out_of_runUnitsThen {units : List Instr} {rest : State → State} {s t : State} (hs : faulted s = false)
    (h : runUnitsThen units rest s = .next t) (hrest : ∀ u, (rest u).out = u.out) :
    ∃ bs, t.out = s.out.map fun m => Memory.writeList .OUT m s.p.toNat bs := by
  obtain ⟨u, he, ht⟩ := emitted_of_runUnitsThen hs h
  obtain ⟨bs, ho, -⟩ := he.bytes
  obtain ⟨-, rfl⟩ | ⟨-, rfl⟩ := ht
  · exact ⟨bs, ho⟩
  · exact ⟨bs, (hrest u).trans ho⟩

/-- What the block's own step does to OUT: nothing, a fresh allocation (R125), or bytes stored from the cursor (R54). -/
theorem advance_out {s t : State} (h : advance s = .next t) :
    t.out = s.out ∨ t.out = some [] ∨ ∃ bs, t.out = s.out.map fun m => Memory.writeList .OUT m s.p.toNat bs := by
  obtain ⟨⟨hf, -⟩, ⟨-, rfl⟩ | ⟨-, rfl⟩ | ⟨-, rfl⟩ | ⟨-, h⟩ | ⟨-, -, rfl⟩ | ⟨-, -, h⟩ | ⟨-, h⟩⟩ := advance_cases s t h
  · exact Or.inl rfl
  · rcases validateStep_cases s with ⟨-, hv⟩ | ⟨-, hv⟩ <;> rw [hv] <;> exact Or.inl rfl
  · rcases allocStep_cases s with ⟨-, ha⟩ | ⟨-, ha⟩ <;> rw [ha]
    · exact Or.inr (Or.inl rfl)
    · exact Or.inl rfl
  · exact Or.inr (Or.inr (out_of_runUnitsThen hf h (enterPhase_out .pixels)))
  · exact Or.inl rfl
  · obtain ⟨-, rfl⟩ | ⟨px, v, units, -, hs, hrun⟩ := pixelStep_selected h
    · exact Or.inl rfl
    · have hbytes := out_of_runUnitsThen (hs.faulted_eq.trans hf) hrun (retire_out px)
      obtain ⟨_, _, rfl⟩ := hs.frame
      exact Or.inr (Or.inr hbytes)
  · exact Or.inr (Or.inr (out_of_runUnitsThen hf h finishCall_out))

theorem BuffersCanonical.advance {s t : State} (h : BuffersCanonical s) (hstep : advance s = .next t) :
    BuffersCanonical t := by
  obtain ⟨hin, hout⟩ := h
  obtain ⟨-, -, -, -, -, -, hmem, -⟩ := (writersOf_advance hstep).command
  refine ⟨hmem ▸ hin, fun m hm => ?_⟩
  rcases advance_out hstep with ho | ho | ⟨bs, ho⟩ <;> rw [ho] at hm
  · exact hout m hm
  · cases hm
    rfl
  · obtain ⟨m', hm', rfl⟩ := Option.map_eq_some_iff.mp hm
    exact Memory.writeList_wf .OUT bs m' _ (hout m' hm')

/-- An accepted START takes a canonical input buffer, and OUT is absent until ALLOC (R40). -/
theorem buffersCanonical_start (cmd : StartCmd) (s : State) : BuffersCanonical (seedCall (latchCommand cmd s)) :=
  ⟨Memory.ofBytes_wf .IN cmd.buffer 0, fun m hm => by cases hm⟩

/-- Settles O47: IN is replaced by a START only, and every write to OUT keeps the form. -/
theorem buffersCanonicalKept : Obligations.BuffersCanonicalKept := by
  intro s t h hstep
  rcases step_cases s t hstep with ⟨cmd, moves, -, rfl⟩ | ⟨moves, -, hadv⟩
  · rcases startCommand_cases cmd { s with host := moves } with ⟨-, -, hc⟩ | ⟨-, hc⟩ <;> rw [hc]
    · exact buffersCanonical_start cmd _
    · exact h
  · exact BuffersCanonical.advance (s := { s with host := moves }) h hadv

/-! ### The host's view -/

theorem Memory.read_isSome_of_listed (sp : Space) {m : Memory} {addr : Nat} (h : addr ∈ m.map Prod.fst) :
    (Memory.read sp m addr).isSome = true := by
  induction m with
  | nil => cases h
  | cons c m ih =>
    unfold Memory.read
    split
    · rfl
    · rename_i hne
      exact ih ((List.mem_cons.mp h).resolve_left (Ne.symm hne))

/-- Every offset below P holds a byte while OUT exists (R60). -/
theorem Inv.outByte_isSome {s : State} (h : Inv s) (ho : hasOut s.phase = true) {k : Nat} (hk : k < s.p.toNat) :
    (outByte s k).isSome = true := by
  obtain ⟨m, hm⟩ := Option.isSome_iff_exists.mp (h.outPresent.trans ho)
  rw [outByte, hm]
  exact Memory.read_isSome_of_listed .OUT (by rw [h.outCells m hm]; exact List.mem_range.mpr hk)

/-- In DONE no byte below OUT_LEN is missing, so the result is OUT[0 .. OUT_LEN-1] byte for byte (R61, R109). -/
theorem result_of_done {s : State} (h : Inv s) (hp : s.phase = .done) :
    ∃ l, result s = some l ∧ l.map some = (List.range s.outLen.toNat).map (outByte s) := by
  refine ⟨_, if_pos hp, ?_⟩
  rw [List.map_filterMap_some_eq_filter_map_isSome, List.filter_eq_self]
  intro b hb
  obtain ⟨k, hk, rfl⟩ := List.mem_map.mp hb
  refine h.outByte_isSome (by rw [hp]; rfl) ?_
  rw [← (h.result hp).1]
  exact List.mem_range.mp hk

/-- In FAIL ERR is one of the two kinds (R32). -/
theorem Inv.err_of_fail {s : State} (h : Inv s) (hp : s.phase = .fail) :
    s.err = .invalidDescriptor ∨ s.err = .allocationFailure := by
  have hne := h.errInFail.mpr hp
  cases he : s.err with
  | none => exact absurd he hne
  | invalidDescriptor => exact Or.inl rfl
  | allocationFailure => exact Or.inr rfl

/-- Settles O54: in DONE OUT_LEN = P, and OUT is filled without a gap below P. -/
theorem resultInDoneOnly : Obligations.ResultInDoneOnly := by
  intro s h
  refine ⟨fun hp => ?_, fun hp => if_neg hp, fun hp => ?_, fun hp => if_neg hp⟩
  · obtain ⟨l, hl, hbytes⟩ := result_of_done h hp
    refine ⟨l, hl, by simpa using congrArg List.length hbytes, fun k hk => ?_⟩
    have hk' : l[k]?.map some = some (outByte s k) := by simpa [hk] using congrArg (·[k]?) hbytes
    obtain ⟨b, hb, hbk⟩ := Option.map_eq_some_iff.mp hk'
    rw [hb, hbk]
  · rw [observedError, if_pos hp, Option.some_inj, Option.some_inj]
    exact h.err_of_fail hp

end Sys2Proof.Machine

/-! PROOFS. The encoding's statements (spec/30_encoding.md): the decoder and the encoder are inverse to each other, and
the first byte gives the length. -/
namespace Sys2Proof

/-! ### The fields of a byte -/

@[simp] theorem tagOf_append (tag : BitVec 2) (payload : BitVec 6) : tagOf (tag ++ payload) = tag :=
  BitVec.extractLsb'_append_eq_left

@[simp] theorem payloadOf_append (tag : BitVec 2) (payload : BitVec 6) : payloadOf (tag ++ payload) = payload :=
  BitVec.extractLsb'_append_eq_right

@[simp] theorem tagOf_append_payloadOf (b : Byte) : tagOf b ++ payloadOf b = b :=
  BitVec.extractLsb'_append_extractLsb' (w := 2) (len := 6)

/-- The four fields of a value made of four fields: DIFF's byte (R71) and a big-endian word (R56). -/
theorem fields_of_append {w : Nat} (x3 x2 x1 x0 : BitVec w) :
    (x3 ++ x2 ++ x1 ++ x0).extractLsb' (3 * w) w = x3 ∧ (x3 ++ x2 ++ x1 ++ x0).extractLsb' (2 * w) w = x2 ∧
      (x3 ++ x2 ++ x1 ++ x0).extractLsb' w w = x1 ∧ (x3 ++ x2 ++ x1 ++ x0).extractLsb' 0 w = x0 := by
  have hlow : 2 * w - w = w ∧ 3 * w - w = 2 * w := by omega
  simp [BitVec.extractLsb'_append_eq_of_le, BitVec.extractLsb'_append_eq_of_add_le, Nat.le_mul_of_pos_left, hlow]

theorem append_of_fields {w : Nat} (x : BitVec (w + w + w + w)) :
    x.extractLsb' (3 * w) w ++ x.extractLsb' (2 * w) w ++ x.extractLsb' w w ++ x.extractLsb' 0 w = x := by
  rw [BitVec.extractLsb'_append_extractLsb'_eq_extractLsb' (show 3 * w = 2 * w + w by omega),
    BitVec.extractLsb'_append_extractLsb'_eq_extractLsb' (show 2 * w = w + w by omega),
    BitVec.extractLsb'_append_extractLsb'_eq_extractLsb' (Nat.zero_add w).symm, BitVec.extractLsb'_eq_self]

theorem tagOf_toNat (b : Byte) : (tagOf b).toNat = b.toNat / 64 := by
  rw [tagOf, BitVec.extractLsb'_toNat, Nat.shiftRight_eq_div_pow]
  omega

theorem payloadOf_toNat (b : Byte) : (payloadOf b).toNat = b.toNat % 64 := by
  simp [payloadOf]

/-- A field holds every value of its range once the bias is on it (R73). -/
theorem unbias_biased (w : Nat) {v bias : Int} (hlo : -bias ≤ v) (hhi : v < 2 ^ w - bias) :
    unbias (biased w v bias) bias = v := by
  have hnat : ((v + bias).toNat : Int) = v + bias := Int.toNat_of_nonneg (by omega)
  rw [unbias, biased, BitVec.toNat_ofInt, Int.emod_eq_of_lt (by omega) (by push_cast; omega), hnat]
  omega

@[simp] theorem biased_unbias {w : Nat} (field : BitVec w) (bias : Int) :
    biased w (unbias field bias) bias = field := by
  rw [biased, unbias, Int.sub_add_cancel, BitVec.ofInt_natCast, BitVec.ofNat_toNat, BitVec.setWidth_eq]

theorem unbias_bounds {w : Nat} (field : BitVec w) (bias : Int) :
    -bias ≤ unbias field bias ∧ unbias field bias < 2 ^ w - bias := by
  have h : (field.toNat : Int) < 2 ^ w := by exact_mod_cast field.isLt
  rw [unbias]
  omega

/-! ### Well-formed tags -/

theorem Config.wf_tags {c : Config} (h : c.wf = true) : c.tags.wf = true := by
  simp only [Config.wf, Bool.and_eq_true] at h
  exact h.2

section
variable {t : Tags} (h : t.wf = true)
include h

/-- The 2-bit tags are distinct (R72). -/
theorem Tags.distinct : t.index ≠ t.diff ∧ t.index ≠ t.luma ∧ t.index ≠ t.run ∧ t.diff ≠ t.luma ∧
    t.diff ≠ t.run ∧ t.luma ≠ t.run := by
  simp only [Tags.wf, Bool.and_eq_true, decide_eq_true_eq] at h
  obtain ⟨⟨⟨⟨⟨⟨⟨⟨⟨⟨hid, hil⟩, hir⟩, hdl⟩, hdr⟩, hlr⟩, -⟩, -⟩, -⟩, -⟩, -⟩ := h
  exact ⟨hid, hil, hir, hdl, hdr, hlr⟩

/-- The 8-bit tags are two bytes under the run tag, with payloads that are no run length (R75, R76). -/
theorem Tags.literals : t.rgb ≠ t.rgba ∧ (tagOf t.rgb = t.run ∧ 62 ≤ (payloadOf t.rgb).toNat) ∧
    (tagOf t.rgba = t.run ∧ 62 ≤ (payloadOf t.rgba).toNat) := by
  simp only [Tags.wf, Bool.and_eq_true, decide_eq_true_eq] at h
  obtain ⟨⟨⟨⟨⟨-, hne⟩, hrgb⟩, hrgb62⟩, hrgba⟩, hrgba62⟩ := h
  exact ⟨hne, ⟨hrgb, hrgb62⟩, hrgba, hrgba62⟩

/-- The two literal tags are the two bytes that the run tag leaves over (R76). -/
theorem Tags.literal_iff (b : Byte) : (b = t.rgb ∨ b = t.rgba) ↔ tagOf b = t.run ∧ 62 ≤ (payloadOf b).toNat := by
  obtain ⟨hne, hrgb, hrgba⟩ := Tags.literals h
  refine ⟨?_, fun hb => ?_⟩
  · rintro (rfl | rfl)
    · exact hrgb
    · exact hrgba
  · have htag : (tagOf b).toNat = (tagOf t.rgb).toNat ∧ (tagOf b).toNat = (tagOf t.rgba).toNat := by
      rw [hb.1, hrgb.1, hrgba.1]
      exact ⟨rfl, rfl⟩
    simp only [tagOf_toNat, payloadOf_toNat] at htag hb hrgb hrgba
    simp only [← BitVec.toNat_inj, ne_eq] at hne ⊢
    omega

/-- The four 2-bit tags are all there are (R77). -/
theorem Tags.cover (x : BitVec 2) : x = t.luma ∨ x = t.index ∨ x = t.diff ∨ x = t.run := by
  obtain ⟨hid, hil, hir, hdl, hdr, hlr⟩ := Tags.distinct h
  simp only [← BitVec.toNat_inj, ne_eq] at hid hil hir hdl hdr hlr ⊢
  omega

/-- Every byte starts one of the six opcodes, in the order of the decoder's tests (R75, R77). -/
theorem Tags.first_byte_cases (b : Byte) :
    b = t.rgba ∨ b = t.rgb ∨ tagOf b = t.luma ∨ tagOf b = t.index ∨ tagOf b = t.diff ∨
      (tagOf b = t.run ∧ (payloadOf b).toNat < 62) := by
  rcases Tags.cover h (tagOf b) with hb | hb | hb | hb
  · exact Or.inr (Or.inr (Or.inl hb))
  · exact Or.inr (Or.inr (Or.inr (Or.inl hb)))
  · exact Or.inr (Or.inr (Or.inr (Or.inr (Or.inl hb))))
  · rcases Nat.lt_or_ge (payloadOf b).toNat 62 with hlt | hge
    · exact Or.inr (Or.inr (Or.inr (Or.inr (Or.inr ⟨hb, hlt⟩))))
    · rcases (Tags.literal_iff h b).mpr ⟨hb, hge⟩ with hrgb | hrgba
      · exact Or.inr (Or.inl hrgb)
      · exact Or.inl hrgba

/-- A byte outside the run tag, or with a run length as payload, is no literal tag (R76). -/
theorem Tags.not_literal {b : Byte} (hb : tagOf b = t.run → (payloadOf b).toNat < 62) :
    b ≠ t.rgba ∧ b ≠ t.rgb := by
  have hliteral : ¬(b = t.rgb ∨ b = t.rgba) := fun he => by
    obtain ⟨hrun, hge⟩ := (Tags.literal_iff h b).mp he
    exact absurd (hb hrun) (Nat.not_lt.mpr hge)
  exact ⟨fun he => hliteral (Or.inr he), fun he => hliteral (Or.inl he)⟩

/-! ### What each first byte decodes to -/

theorem decodeOpcode_of_rgb (shortLit : Bool) (tail : List Byte) :
    decodeOpcode t shortLit (t.rgb :: tail) = decodeRgb tail := by
  simp [decodeOpcode, (Tags.literals h).1]

variable {b : Byte} (shortLit : Bool) (tail : List Byte)

theorem decodeOpcode_of_luma (hb : tagOf b = t.luma) :
    decodeOpcode t shortLit (b :: tail) = decodeLuma b tail := by
  obtain ⟨-, -, -, -, -, hlr⟩ := Tags.distinct h
  obtain ⟨hrgba, hrgb⟩ := Tags.not_literal h fun he => absurd (hb.symm.trans he) hlr
  simp [decodeOpcode, hrgba, hrgb, hb]

theorem decodeOpcode_of_index (hb : tagOf b = t.index) :
    decodeOpcode t shortLit (b :: tail) = .ok (.index (payloadOf b), tail) := by
  obtain ⟨-, hil, hir, -⟩ := Tags.distinct h
  obtain ⟨hrgba, hrgb⟩ := Tags.not_literal h fun he => absurd (hb.symm.trans he) hir
  simp [decodeOpcode, hrgba, hrgb, hb, hil]

theorem decodeOpcode_of_diff (hb : tagOf b = t.diff) :
    decodeOpcode t shortLit (b :: tail) =
      .ok (.diff (unbias (b.extractLsb' 4 2) 2) (unbias (b.extractLsb' 2 2) 2) (unbias (b.extractLsb' 0 2) 2),
        tail) := by
  obtain ⟨hid, -, -, hdl, hdr, -⟩ := Tags.distinct h
  obtain ⟨hrgba, hrgb⟩ := Tags.not_literal h fun he => absurd (hb.symm.trans he) hdr
  simp [decodeOpcode, hrgba, hrgb, hb, hdl, hid.symm]

theorem decodeOpcode_of_run (hb : tagOf b = t.run) (hlt : (payloadOf b).toNat < 62) :
    decodeOpcode t shortLit (b :: tail) = .ok (.run (payloadOf b + 1#6), tail) := by
  obtain ⟨-, -, hir, -, hdr, hlr⟩ := Tags.distinct h
  obtain ⟨hrgba, hrgb⟩ := Tags.not_literal h fun _ => hlt
  simp [decodeOpcode, hrgba, hrgb, hb, hlr.symm, hir.symm, hdr.symm, Nat.not_le.mpr hlt]

end

/-- The literal tag is the first that the decoder tests, whatever the other tags are (R75). -/
theorem decodeOpcode_of_rgba (t : Tags) (shortLit : Bool) (tail : List Byte) :
    decodeOpcode t shortLit (t.rgba :: tail) = decodeRgba shortLit tail := by
  simp [decodeOpcode]

/-! ### Decoding an encoded unit -/

theorem ofBigEndian_bigEndian (w : Word) :
    ofBigEndian (w.extractLsb' 24 8) (w.extractLsb' 16 8) (w.extractLsb' 8 8) (w.extractLsb' 0 8) = w :=
  append_of_fields (w := 8) w

theorem decodeHeader_headerBytes (m : Magic) (width height : Word) (channels colorspace : Byte) (rest : List Byte) :
    decodeHeader m (headerBytes m width height channels colorspace ++ rest) =
      .ok (.header width height channels colorspace, rest) := by
  simp [headerBytes, bigEndian, decodeHeader, ofBigEndian_bigEndian]

theorem decodeEnd_endBytes (rest : List Byte) : decodeEnd (endBytes ++ rest) = .ok (.endMarker, rest) := by
  simp [decodeEnd, endBytes]

/-- The short form leaves out an alpha that the decoder knows (R154, R55). -/
theorem decodeOpcode_rgbaBytes (t : Tags) (shortLit : Bool) (r g b a : Byte) (rest : List Byte)
    (ha : shortLit = true → a = 255#8) :
    decodeOpcode t shortLit (rgbaBytes t shortLit r g b a ++ rest) = .ok (.rgba r g b a, rest) := by
  simp only [rgbaBytes, List.cons_append, decodeOpcode_of_rgba]
  cases shortLit with
  | false => rfl
  | true =>
    rw [ha rfl]
    rfl

/-- A run length's payload is none of the two that the literals take (R76). -/
theorem run_payload_lt {n : BitVec 6} (h : (Instr.run n).wf = true) : (n - 1#6).toNat < 62 := by
  simp only [Instr.wf, Bool.and_eq_true, decide_eq_true_eq] at h
  rw [BitVec.toNat_sub, BitVec.toNat_ofNat]
  omega

section
variable {t : Tags} (h : t.wf = true) (shortLit : Bool) (rest : List Byte)
include h

theorem decodeOpcode_rgbBytes (r g b : Byte) :
    decodeOpcode t shortLit (rgbBytes t r g b ++ rest) = .ok (.rgb r g b, rest) := by
  simp only [rgbBytes, List.cons_append, decodeOpcode_of_rgb h]
  rfl

theorem decodeOpcode_indexBytes (bucket : Bucket) :
    decodeOpcode t shortLit (indexBytes t bucket ++ rest) = .ok (.index bucket, rest) := by
  simp only [indexBytes, List.cons_append, List.nil_append, decodeOpcode_of_index h _ _ (tagOf_append _ _),
    payloadOf_append]

theorem decodeOpcode_diffBytes {dr dg db : Int} (hwf : (Instr.diff dr dg db).wf = true) :
    decodeOpcode t shortLit (diffBytes t dr dg db ++ rest) = .ok (.diff dr dg db, rest) := by
  simp only [Instr.wf, Bool.and_eq_true, decide_eq_true_eq] at hwf
  obtain ⟨⟨⟨⟨⟨hrlo, hrhi⟩, hglo⟩, hghi⟩, hblo⟩, hbhi⟩ := hwf
  obtain ⟨htag, hr, hg, hb⟩ := fields_of_append t.diff (biased 2 dr 2) (biased 2 dg 2) (biased 2 db 2)
  rw [diffBytes, List.cons_append, List.nil_append, decodeOpcode_of_diff h _ _ htag, hr, hg, hb,
    unbias_biased 2 hrlo (by omega), unbias_biased 2 hglo (by omega), unbias_biased 2 hblo (by omega)]

theorem decodeOpcode_lumaBytes {dg drg dbg : Int} (hwf : (Instr.luma dg drg dbg).wf = true) :
    decodeOpcode t shortLit (lumaBytes t dg drg dbg ++ rest) = .ok (.luma dg drg dbg, rest) := by
  simp only [Instr.wf, Bool.and_eq_true, decide_eq_true_eq] at hwf
  obtain ⟨⟨⟨⟨⟨hglo, hghi⟩, hrlo⟩, hrhi⟩, hblo⟩, hbhi⟩ := hwf
  rw [lumaBytes, List.cons_append, decodeOpcode_of_luma h _ _ (tagOf_append _ _), List.cons_append, List.nil_append,
    decodeLuma, payloadOf_append, BitVec.extractLsb'_append_eq_left, BitVec.extractLsb'_append_eq_right,
    unbias_biased 6 hglo (by omega), unbias_biased 4 hrlo (by omega), unbias_biased 4 hblo (by omega)]

/-- A run of 1 to 62 is no literal tag, so it is read as a run (R76). -/
theorem decodeOpcode_runBytes {n : BitVec 6} (hwf : (Instr.run n).wf = true) :
    decodeOpcode t shortLit (runBytes t n ++ rest) = .ok (.run n, rest) := by
  have hlt : (payloadOf (t.run ++ (n - 1#6))).toNat < 62 := (payloadOf_append _ _).symm ▸ run_payload_lt hwf
  rw [runBytes, List.cons_append, List.nil_append, decodeOpcode_of_run h _ _ (tagOf_append _ _) hlt, payloadOf_append,
    BitVec.sub_add_cancel]

end

/-- Settles O11: each unit's bytes are read back field by field at the unit's place. -/
theorem decodeOfEncode : Obligations.DecodeOfEncode := by
  intro c shortLit i rest hc hwf halpha
  have ht := Config.wf_tags hc
  cases i with
  | index bucket => exact decodeOpcode_indexBytes ht shortLit rest bucket
  | diff dr dg db => exact decodeOpcode_diffBytes ht shortLit rest hwf
  | luma dg drg dbg => exact decodeOpcode_lumaBytes ht shortLit rest hwf
  | run n => exact decodeOpcode_runBytes ht shortLit rest hwf
  | rgb r g b => exact decodeOpcode_rgbBytes ht shortLit rest r g b
  | rgba r g b a => exact decodeOpcode_rgbaBytes c.tags shortLit r g b a rest (halpha r g b a rfl)
  | header width height channels colorspace =>
    exact decodeHeader_headerBytes c.magic width height channels colorspace rest
  | endMarker => exact decodeEnd_endBytes rest

/-! ### Encoding a decoded unit -/

theorem bigEndian_ofBigEndian (b3 b2 b1 b0 : Byte) : bigEndian (ofBigEndian b3 b2 b1 b0) = [b3, b2, b1, b0] := by
  simp only [bigEndian, List.cons.injEq, and_true]
  exact fields_of_append b3 b2 b1 b0

/-- Unit `i`, read at `place` from `bytes` with `rest` left over, is written back as the bytes read. -/
def WrittenBack (c : Config) (shortLit : Bool) (place : Place) (bytes rest : List Byte) (i : Instr) : Prop :=
  encode c shortLit i ++ rest = bytes ∧ placeOf shortLit i = place ∧ (place ≠ .streamStart → i.wf = true)

section
variable {c : Config} {shortLit : Bool} {b : Byte} {bytes tail rest : List Byte} {i : Instr}

theorem writtenBack_header (h : decodeHeader c.magic bytes = .ok (i, rest)) :
    WrittenBack c shortLit .streamStart bytes rest i := by
  unfold decodeHeader at h
  split at h
  · split at h
    · rename_i hmagic
      obtain ⟨rfl, rfl, rfl, rfl⟩ := hmagic
      cases h
      exact ⟨by simp [encode, headerBytes, bigEndian_ofBigEndian], rfl, fun hne => absurd rfl hne⟩
    · cases h
  · cases h

theorem writtenBack_end (h : decodeEnd bytes = .ok (i, rest)) : WrittenBack c shortLit .streamEnd bytes rest i := by
  unfold decodeEnd at h
  split at h
  · split at h
    · rename_i hmarker
      obtain ⟨rfl, rfl, rfl, rfl, rfl, rfl, rfl, rfl⟩ := hmarker
      cases h
      exact ⟨rfl, rfl, fun _ => rfl⟩
    · cases h
  · cases h

theorem writtenBack_rgba (h : decodeRgba shortLit tail = .ok (i, rest)) :
    WrittenBack c shortLit (.opcode shortLit) (c.tags.rgba :: tail) rest i := by
  unfold decodeRgba at h
  split at h
  · cases shortLit with
    | true =>
      cases h
      exact ⟨rfl, rfl, fun _ => rfl⟩
    | false =>
      simp only [Bool.false_eq_true, if_false] at h
      split at h
      · cases h
        exact ⟨rfl, rfl, fun _ => rfl⟩
      · cases h
  · cases h

theorem writtenBack_rgb (h : decodeRgb tail = .ok (i, rest)) :
    WrittenBack c shortLit (.opcode shortLit) (c.tags.rgb :: tail) rest i := by
  unfold decodeRgb at h
  split at h
  · cases h
    exact ⟨rfl, rfl, fun _ => rfl⟩
  · cases h

theorem writtenBack_luma (hb : tagOf b = c.tags.luma) (h : decodeLuma b tail = .ok (i, rest)) :
    WrittenBack c shortLit (.opcode shortLit) (b :: tail) rest i := by
  unfold decodeLuma at h
  split at h
  · rename_i b1 _
    cases h
    have hg := unbias_bounds (payloadOf b) 32
    have hrg := unbias_bounds (b1.extractLsb' 4 4) 8
    have hbg := unbias_bounds (b1.extractLsb' 0 4) 8
    have hnibbles : b1.extractLsb' 4 4 ++ b1.extractLsb' 0 4 = b1 :=
      BitVec.extractLsb'_append_extractLsb' (w := 4) (len := 4)
    refine ⟨?_, rfl, fun _ => ?_⟩
    · simp [encode, lumaBytes, ← hb, hnibbles]
    · simp only [Instr.wf, Bool.and_eq_true, decide_eq_true_eq]
      omega
  · cases h

theorem writtenBack_diff (hb : tagOf b = c.tags.diff) :
    WrittenBack c shortLit (.opcode shortLit) (b :: rest) rest
      (.diff (unbias (b.extractLsb' 4 2) 2) (unbias (b.extractLsb' 2 2) 2) (unbias (b.extractLsb' 0 2) 2)) := by
  have hdr := unbias_bounds (b.extractLsb' 4 2) 2
  have hdg := unbias_bounds (b.extractLsb' 2 2) 2
  have hdb := unbias_bounds (b.extractLsb' 0 2) 2
  refine ⟨?_, rfl, fun _ => ?_⟩
  · simp only [encode, diffBytes, ← hb, biased_unbias, List.cons_append, List.nil_append, List.cons.injEq, and_true]
    exact append_of_fields (w := 2) b
  · simp only [Instr.wf, Bool.and_eq_true, decide_eq_true_eq]
    omega

theorem writtenBack_run (hb : tagOf b = c.tags.run) (hlt : (payloadOf b).toNat < 62) :
    WrittenBack c shortLit (.opcode shortLit) (b :: rest) rest (.run (payloadOf b + 1#6)) := by
  refine ⟨?_, rfl, fun _ => ?_⟩
  · rw [encode, runBytes, ← hb, BitVec.add_sub_cancel, tagOf_append_payloadOf]
    rfl
  · simp only [Instr.wf, Bool.and_eq_true, decide_eq_true_eq, BitVec.toNat_add, BitVec.toNat_ofNat]
    omega

theorem writtenBack_opcode (hc : c.wf = true) (h : decodeOpcode c.tags shortLit bytes = .ok (i, rest)) :
    WrittenBack c shortLit (.opcode shortLit) bytes rest i := by
  have ht := Config.wf_tags hc
  cases bytes with
  | nil => cases h
  | cons b tail =>
    rcases Tags.first_byte_cases ht b with rfl | rfl | hb | hb | hb | ⟨hb, hlt⟩
    · exact writtenBack_rgba (decodeOpcode_of_rgba c.tags shortLit tail ▸ h)
    · exact writtenBack_rgb (decodeOpcode_of_rgb ht shortLit tail ▸ h)
    · exact writtenBack_luma hb (decodeOpcode_of_luma ht shortLit tail hb ▸ h)
    · rw [decodeOpcode_of_index ht shortLit tail hb] at h
      cases h
      exact ⟨by simp [encode, indexBytes, ← hb], rfl, fun _ => rfl⟩
    · rw [decodeOpcode_of_diff ht shortLit tail hb] at h
      cases h
      exact writtenBack_diff hb
    · rw [decodeOpcode_of_run ht shortLit tail hb hlt] at h
      cases h
      exact writtenBack_run hb hlt

end

/-- Settles O12, by the place and there by the first byte. -/
theorem encodeOfDecode : Obligations.EncodeOfDecode := by
  intro c shortLit place bytes rest i hc hplace h
  rcases hplace with rfl | rfl | rfl
  · exact writtenBack_header h
  · exact writtenBack_end h
  · exact writtenBack_opcode hc h

/-! ### The first byte -/

/-- Settles O13: every first byte starts one of the six opcodes, and none is longer than five bytes. -/
theorem everyFirstByteIsAssigned : Obligations.EveryFirstByteIsAssigned := by
  intro c shortLit b0 b1 b2 b3 b4 rest hc
  have ht := Config.wf_tags hc
  rcases Tags.first_byte_cases ht b0 with rfl | rfl | hb | hb | hb | ⟨hb, hlt⟩
  · cases shortLit <;> exact ⟨_, _, decodeOpcode_of_rgba c.tags _ _⟩
  · exact ⟨_, _, decodeOpcode_of_rgb ht shortLit _⟩
  · exact ⟨_, _, decodeOpcode_of_luma ht shortLit _ hb⟩
  · exact ⟨_, _, decodeOpcode_of_index ht shortLit _ hb⟩
  · exact ⟨_, _, decodeOpcode_of_diff ht shortLit _ hb⟩
  · exact ⟨_, _, decodeOpcode_of_run ht shortLit _ hb hlt⟩

theorem wf_defaultTags : Machine.defaultTags.wf = true := by decide

theorem tagOf_eq_iff (b : Byte) (tag : BitVec 2) : tagOf b = tag ↔ b.toNat / 64 = tag.toNat := by
  rw [← BitVec.toNat_inj, tagOf_toNat]

/-- Below the two literals the tag alone gives the length (R75). -/
theorem lengthOfFirstByte_of_tag {b : Byte} {tag : BitVec 2} (htag : tagOf b = tag)
    (hb : tag = 0b11#2 → (payloadOf b).toNat < 62) : lengthOfFirstByte b = if tag = 0b10#2 then 2 else 1 := by
  obtain ⟨hrgba, hrgb⟩ := Tags.not_literal wf_defaultTags fun he => hb (htag.symm.trans he)
  rw [← htag]
  exact (if_neg hrgba).trans (if_neg hrgb)

/-- The length that a unit's first byte gives is the unit's own (R75). -/
theorem lengthOfFirstByte_encode {i : Instr} {b : Byte} {tail : List Byte} (hwf : i.wf = true)
    (hplace : placeOf false i = .opcode false) (h : encode Machine.defaultConfig false i = b :: tail) :
    lengthOfFirstByte b = unitLength false i := by
  cases i with
  | index bucket =>
    cases h
    exact lengthOfFirstByte_of_tag (tagOf_append _ _) fun he => absurd he (by decide)
  | diff dr dg db =>
    cases h
    exact lengthOfFirstByte_of_tag (fields_of_append _ _ _ _).1 fun he => absurd he (by decide)
  | luma dg drg dbg =>
    cases h
    exact lengthOfFirstByte_of_tag (tagOf_append _ _) fun he => absurd he (by decide)
  | run n =>
    cases h
    exact lengthOfFirstByte_of_tag (tagOf_append _ _) fun _ => (payloadOf_append _ _).symm ▸ run_payload_lt hwf
  | rgb r g b =>
    cases h
    rfl
  | rgba r g b a =>
    cases h
    rfl
  | header width height channels colorspace => cases hplace
  | endMarker => cases hplace

/-- Settles O14: with the default tags a byte that is no literal tag gives the length by bits 7 and 6, which are the
byte over 64. -/
theorem firstByteGivesLength : Obligations.FirstByteGivesLength := by
  intro i b0 tail hwf hplace h
  refine ⟨?_, ?_⟩
  · rw [lengthOfFirstByte_encode hwf hplace h, ← h, Machine.encode_length]
  · simp only [lengthOfFirstByte, tagOf_eq_iff, BitVec.toNat_ofNat, Nat.reducePow, Nat.reduceMod]

/-- Settles O15, by running the decoder on each word. -/
theorem specWordsDecode : Obligations.SpecWordsDecode := by
  refine ⟨?_, ?_, ?_, ?_, ?_, ?_, ?_, ?_⟩ <;> decide

end Sys2Proof

/-! PROOFS. The units a pixel selects: their strategy, their bytes, the pixels they name; and the frame of a stream
(spec/30_encoding.md R70, R74, R78). -/
namespace Sys2Proof.Machine

/-! ### The units of a pixel -/

/-- What `selectUnits` answers: RUN's, DELTA's or CACHE's selection (R106). -/
theorem selectUnits_cases {px : Pixel} {s v : State} {units : List Instr} (h : selectUnits px s = some (v, units)) :
    (s.sel = selRun ∧ runSelect px (lastPixel s) s = (v, units)) ∨
    (s.sel = selDelta ∧ v = s ∧ units = [deltaUnit px s.prev]) ∨
    (s.sel = selCache ∧ cacheSelect px s = (v, units)) := by
  unfold selectUnits at h
  split at h
  · rename_i hsel
    exact Or.inl ⟨hsel, Option.some.inj h⟩
  · split at h
    · rename_i hsel
      cases h
      exact Or.inr (Or.inl ⟨hsel, rfl, rfl⟩)
    · split at h
      · rename_i hsel
        exact Or.inr (Or.inr ⟨hsel, Option.some.inj h⟩)
      · cases h

/-- The deltas that `diffFits` admits are the operands that DIFF's fields hold (R73, R160). -/
theorem wf_diff_of_fits {d : Deltas} (h : diffFits d = true) : (Instr.diff d.dr d.dg d.db).wf = true := by
  simp only [diffFits, inRange, Bool.and_eq_true, decide_eq_true_eq] at h
  obtain ⟨⟨⟨hrlo, hrhi⟩, hglo, hghi⟩, hblo, hbhi⟩ := h
  simp only [Instr.wf, Bool.and_eq_true, decide_eq_true_eq]
  exact ⟨⟨⟨⟨⟨hrlo, hrhi⟩, hglo⟩, hghi⟩, hblo⟩, hbhi⟩

/-- The deltas that `lumaFits` admits are the operands that LUMA's fields hold (R73, R160). -/
theorem wf_luma_of_fits {d : Deltas} (h : lumaFits d = true) : (Instr.luma d.dg d.drg d.dbg).wf = true := by
  simp only [lumaFits, inRange, Bool.and_eq_true, decide_eq_true_eq] at h
  obtain ⟨⟨⟨hrlo, hrhi⟩, hglo, hghi⟩, hblo, hbhi⟩ := h
  simp only [Instr.wf, Bool.and_eq_true, decide_eq_true_eq]
  exact ⟨⟨⟨⟨⟨hglo, hghi⟩, hrlo⟩, hrhi⟩, hblo⟩, hbhi⟩

/-- DELTA's decision, in its order (R160). -/
theorem deltaUnit_cases (px prev : Pixel) :
    deltaUnit px prev = .rgba px.r px.g px.b px.a ∨
    (px.a = prev.a ∧
      ((diffFits (deltasOf px prev) = true ∧
          deltaUnit px prev = .diff (deltasOf px prev).dr (deltasOf px prev).dg (deltasOf px prev).db) ∨
       (lumaFits (deltasOf px prev) = true ∧
          deltaUnit px prev = .luma (deltasOf px prev).dg (deltasOf px prev).drg (deltasOf px prev).dbg) ∨
       deltaUnit px prev = .rgb px.r px.g px.b)) := by
  simp only [deltaUnit]
  split
  · exact Or.inl rfl
  · rename_i ha
    refine Or.inr ⟨by simpa [alphaChanged] using ha, ?_⟩
    split
    · rename_i hfits
      exact Or.inl ⟨hfits, rfl⟩
    · split
      · rename_i hfits
        exact Or.inr (Or.inl ⟨hfits, rfl⟩)
      · exact Or.inr (Or.inr rfl)

/-- The units that a pixel can select, each with the strategy that selects it and the range of its operands (R78). -/
inductive PixelUnit (px : Pixel) (s : State) : Instr → Prop
  | literal (hsel : s.sel = selRun ∨ s.sel = selDelta ∨ s.sel = selCache) :
      PixelUnit px s (.rgba px.r px.g px.b px.a)
  | index (hsel : s.sel = selCache) (bucket : Bucket) : PixelUnit px s (.index bucket)
  | diff (hsel : s.sel = selDelta) {dr dg db : Int} (hwf : (Instr.diff dr dg db).wf = true) :
      PixelUnit px s (.diff dr dg db)
  | luma (hsel : s.sel = selDelta) {dg drg dbg : Int} (hwf : (Instr.luma dg drg dbg).wf = true) :
      PixelUnit px s (.luma dg drg dbg)
  | rgb (hsel : s.sel = selDelta) : PixelUnit px s (.rgb px.r px.g px.b)
  | run (hsel : s.sel = selRun) {n : BitVec 6} (hn : (n = s.run ∧ s.run ≠ 0#6) ∨ n = s.run + 1#6) :
      PixelUnit px s (.run n)

theorem pixelUnit_deltaUnit (px : Pixel) {s : State} (hsel : s.sel = selDelta) :
    PixelUnit px s (deltaUnit px s.prev) := by
  rcases deltaUnit_cases px s.prev with h | ⟨-, ⟨hfits, h⟩ | ⟨hfits, h⟩ | h⟩ <;> rw [h]
  · exact .literal (Or.inr (Or.inl hsel))
  · exact .diff hsel (wf_diff_of_fits hfits)
  · exact .luma hsel (wf_luma_of_fits hfits)
  · exact .rgb hsel

theorem pixelUnit_runSelect (px : Pixel) (last : Bool) {s : State} (hsel : s.sel = selRun) {i : Instr}
    (hi : i ∈ (runSelect px last s).2) : PixelUnit px s i := by
  rcases runSelect_cases px last s with ⟨-, -, -, h⟩ | ⟨-, -, h⟩ | ⟨-, -, h⟩ | ⟨-, hrun, h⟩ <;> rw [h] at hi
  · cases hi
  · cases List.mem_singleton.mp hi
    exact .run hsel (Or.inr rfl)
  · cases List.mem_singleton.mp hi
    exact .literal (Or.inl hsel)
  · rcases List.mem_cons.mp hi with rfl | hi
    · exact .run hsel (Or.inl ⟨rfl, hrun⟩)
    · cases List.mem_singleton.mp hi
      exact .literal (Or.inl hsel)

theorem pixelUnit_cacheSelect (px : Pixel) {s : State} (hsel : s.sel = selCache) {i : Instr}
    (hi : i ∈ (cacheSelect px s).2) : PixelUnit px s i := by
  rcases cacheSelect_cases px s with ⟨-, h⟩ | ⟨-, h⟩ <;> rw [h] at hi <;> cases List.mem_singleton.mp hi
  · exact .index hsel _
  · exact .literal (Or.inr (Or.inr hsel))

theorem pixelUnit_of_selectUnits {px : Pixel} {s v : State} {units : List Instr} {i : Instr}
    (h : selectUnits px s = some (v, units)) (hi : i ∈ units) : PixelUnit px s i := by
  rcases selectUnits_cases h with ⟨hsel, h⟩ | ⟨hsel, -, rfl⟩ | ⟨hsel, h⟩
  · exact pixelUnit_runSelect px (lastPixel s) hsel (h ▸ hi)
  · exact List.mem_singleton.mp hi ▸ pixelUnit_deltaUnit px hsel
  · exact pixelUnit_cacheSelect px hsel (h ▸ hi)

/-- Settles O42, by the table that `PixelUnit` is. -/
theorem strategyRepertoire : Obligations.StrategyRepertoire := by
  intro s v px units i h hi
  cases pixelUnit_of_selectUnits h hi with
  | literal hsel => exact hsel
  | index hsel => exact hsel
  | diff hsel => exact hsel
  | luma hsel => exact hsel
  | rgb hsel => exact hsel
  | run hsel => exact hsel

/-- A selected unit's operands lie in their ranges; a run's length is 1 to 62 (R73, R76). -/
theorem PixelUnit.wf {px : Pixel} {s : State} {i : Instr} (h : PixelUnit px s i) (hrun : s.run.toNat ≤ 61) :
    i.wf = true := by
  cases h with
  | literal => rfl
  | index => rfl
  | diff _ hwf => exact hwf
  | luma _ hwf => exact hwf
  | rgb => rfl
  | run _ hn =>
    simp only [Instr.wf, Bool.and_eq_true, decide_eq_true_eq]
    rcases hn with ⟨rfl, hne⟩ | rfl
    · have : s.run.toNat ≠ 0 := fun h0 => hne (BitVec.eq_of_toNat_eq h0)
      omega
    · rw [toNat_add_one hrun]
      omega

theorem PixelUnit.placeOf_eq {px : Pixel} {s : State} {i : Instr} (h : PixelUnit px s i) (shortLit : Bool) :
    placeOf shortLit i = .opcode shortLit := by
  cases h <;> rfl

/-- Settles O43: a selected unit is well formed, so its bytes decode; its only literal is the pixel itself. -/
theorem selectedUnitsDecode : Obligations.SelectedUnitsDecode := by
  intro s v px units i rest hcfg hrun h hi halpha
  have hunit := pixelUnit_of_selectUnits h hi
  have hwf := hunit.wf hrun
  refine ⟨hwf, ?_⟩
  rw [← hunit.placeOf_eq]
  refine decodeOfEncode s.cfg (shortLiteral s) i rest hcfg hwf ?_
  rintro r g b a rfl
  cases hunit
  exact halpha

/-! ### The pixels a unit names -/

/-- The wrapped difference added to the old channel gives the new one (R8, R74). -/
theorem add_wrapDelta (x y : Byte) : y + BitVec.ofInt 8 (wrapDelta x y) = x := by
  rw [wrapDelta, BitVec.ofInt_toInt, BitVec.add_comm, BitVec.sub_add_cancel]

/-- LUMA's delta, split over green and the difference to it, adds up to the same (R163). -/
theorem add_lumaDelta (x y : Byte) (dg : Int) : y + BitVec.ofInt 8 (dg + (wrapDelta x y - dg)) = x := by
  rw [show dg + (wrapDelta x y - dg) = wrapDelta x y by omega, add_wrapDelta]

/-- DELTA's unit names the pixel, whichever form it takes (R74, R160). -/
theorem namedPixels_deltaUnit (px prev : Pixel) (cache : Vector Pixel 64) :
    namedPixels prev cache (deltaUnit px prev) = [px] := by
  rcases deltaUnit_cases px prev with h | ⟨ha, ⟨-, h⟩ | ⟨-, h⟩ | h⟩ <;> rw [h, namedPixels]
  · simp only [deltasOf, add_wrapDelta, ← ha]
  · simp only [deltasOf, add_wrapDelta, add_lumaDelta, ← ha]
  · rw [← ha]

/-- CACHE's unit names the pixel: the slot a hit points at holds it (R74, R180). -/
theorem namedPixels_cacheSelect (px : Pixel) (s : State) :
    (cacheSelect px s).2.flatMap (namedPixels s.prev s.cache) = [px] := by
  rcases cacheSelect_cases px s with ⟨hhit, h⟩ | ⟨-, h⟩ <;> rw [h]
  · exact congrArg ([·]) (of_decide_eq_true hhit)
  · rfl

/-- RUN's units and what stays pending name the pending copies of PREV and then the pixel (R74, R150, R151). -/
theorem namedPixels_runSelect (px : Pixel) (last : Bool) {s v : State} {units : List Instr} (hrun : s.run.toNat ≤ 61)
    (h : runSelect px last s = (v, units)) :
    units.flatMap (namedPixels s.prev s.cache) ++ List.replicate (if units = [] then v.run.toNat else 0) s.prev =
      List.replicate s.run.toNat s.prev ++ [px] := by
  have hbump : List.replicate (s.run + 1#6).toNat s.prev = List.replicate s.run.toNat s.prev ++ [s.prev] := by
    rw [toNat_add_one hrun, List.replicate_succ']
  rcases runSelect_cases px last s with ⟨rfl, -, -, hs⟩ | ⟨rfl, -, hs⟩ | ⟨-, h0, hs⟩ | ⟨-, -, hs⟩ <;>
    cases hs.symm.trans h
  · simpa using hbump
  · simpa [namedPixels] using hbump
  · simp [namedPixels, h0]
  · simp [namedPixels]

/-- Settles O44, strategy by strategy. -/
theorem selectedUnitsNameThePixel : Obligations.SelectedUnitsNameThePixel := by
  intro s v px units h
  rcases selectUnits_cases h with ⟨hsel, hs⟩ | ⟨hsel, -, rfl⟩ | ⟨hsel, hs⟩
  · exact ⟨fun hne => absurd hsel hne, fun _ hrun => namedPixels_runSelect px (lastPixel s) hrun hs⟩
  · refine ⟨fun _ => ?_, fun he => absurd (hsel.symm.trans he) (by decide)⟩
    rw [List.flatMap_singleton, namedPixels_deltaUnit]
  · refine ⟨fun _ => ?_, fun he => absurd (hsel.symm.trans he) (by decide)⟩
    rw [show units = (cacheSelect px s).2 by rw [hs], namedPixels_cacheSelect]

/-! ### The frame of a stream -/

theorem outByte_unitAfter (i : Instr) (s : State) (a : Nat) : outByte (unitAfter i s) a = outByte s a := by
  cases i <;> rfl

theorem outByte_stored (s : State) (m : Memory) {bytes : List Byte} {k : Nat} (hk : k < bytes.length) :
    outByte (stored s m bytes) (s.p.toNat + k) = bytes[k]? := by
  simp [outByte, stored, Memory.read_writeList_out, hk]

/-- A step of one unit: it overflows, or its bytes stand at the cursor and the rest of the step follows (R54, R203). -/
theorem runUnitsThen_singleton_next {i : Instr} {rest : State → State} {s t : State}
    (h : runUnitsThen [i] rest s = .next t) :
    ∃ u, Emitted [i] s u ∧
      ((u.faultOutOverflow = true ∧ t = u) ∨
       (u.faultOutOverflow = false ∧ t = rest u ∧
         ∀ k, k < unitLength (shortLiteral s) i →
           outByte u (s.p.toNat + k) = (encode s.cfg (shortLiteral s) i)[k]?)) := by
  obtain ⟨m, hr, ⟨hfit, h⟩ | ⟨hov, rfl⟩⟩ := runUnitsThen_cons_next i [] rest s t h
  · have he := emitted_stored i s m hr hfit
    have hn := (faulted_unitAfter i (stored s m (encode s.cfg (shortLiteral s) i))).trans hr.1
    rw [runUnitsThen_nil rest _ hn] at h
    refine ⟨_, he, Or.inr ⟨he.faulted_eq hr.1 ▸ hn, (Host.Outcome.next.inj h).symm, fun k hk => ?_⟩⟩
    rw [outByte_unitAfter, outByte_stored s m (by rwa [encode_length])]
  · exact ⟨_, emitted_overflowed i s m hr hov, Or.inl ⟨rfl, rfl⟩⟩

/-- OUT begins with the header of the descriptor registers (R70, R140). -/
def HeaderStands (s : State) : Prop :=
  ∀ k, k < 14 → outByte s k = (headerBytes s.cfg.magic s.width s.height s.channels s.colorspace)[k]?

/-- Only a START writes what the header is made of. -/
theorem SameCommand.headerBytes_eq {s t : State} (h : SameCommand s t) :
    headerBytes t.cfg.magic t.width t.height t.channels t.colorspace =
      headerBytes s.cfg.magic s.width s.height s.channels s.colorspace := by
  obtain ⟨-, -, hwidth, hheight, hchannels, hcolor, -, -, -, -, hcfg, -⟩ := h
  rw [hwidth, hheight, hchannels, hcolor, hcfg]

/-- Nothing below the cursor changes, so a header once written stays (R29, R60). -/
theorem HeaderStands.kept {s t : State} (h : HeaderStands s) (hp : 14 ≤ s.p.toNat) (hc : CursorKept s t)
    (hw : SameCommand s t) : HeaderStands t := by
  intro k hk
  rw [hw.headerBytes_eq, hc.2 k (by omega), h k hk]

theorem HeaderStands.streamFramed {s : State} (h : HeaderStands s) (hp : s.phase ≠ .done) : StreamFramed s :=
  ⟨fun _ => h, fun hd => absurd hd hp⟩

theorem streamFramed_of_not_afterHeader {s : State} (h : afterHeader s.phase = false) : StreamFramed s :=
  ⟨fun ha => absurd (h.symm.trans ha) (by decide), fun hd => by rw [hd] at h; cases h⟩

/-- HEADER writes the header at offset 0 (R104, R140). -/
theorem headerStands_of_header {s t : State} (h : Inv s) (hu : Unmarked s) (hp : s.phase = .header)
    (hw : SameCommand s t) (hrun : runUnitsThen [headerUnit s] (enterPhase .pixels) s = .next t) :
    HeaderStands t ∧ t.phase = .pixels := by
  obtain ⟨hp0, -⟩ := h.fresh (by simp [hp, beforeBytes])
  obtain ⟨u, he, ⟨hf, -⟩ | ⟨-, rfl, hbytes⟩⟩ := runUnitsThen_singleton_next hrun
  · exact absurd ((h.header hu hp he).1.symm.trans hf) (by decide)
  · refine ⟨fun k hk => ?_, rfl⟩
    have hbyte := hbytes k hk
    rw [hp0, BitVec.toNat_ofNat, Nat.zero_mod, Nat.zero_add] at hbyte
    rw [hw.headerBytes_eq]
    exact hbyte

/-- FOOTER writes the end marker at the cursor, and OUT_LEN is the cursor behind it (R109, R141). -/
theorem StreamFramed.of_footer {s t : State} (hp : s.phase = .footer) (hh : HeaderStands t)
    (hrun : runUnitsThen [.endMarker] finishCall s = .next t) : StreamFramed t := by
  obtain ⟨u, he, ⟨-, rfl⟩ | ⟨hf, rfl, hbytes⟩⟩ := runUnitsThen_singleton_next hrun
  · obtain ⟨_, _, _, _, rfl⟩ := he.frame
    exact hh.streamFramed (by simp [hp])
  · refine ⟨fun _ => hh, fun _ k hk => ?_⟩
    have hlen : u.p.toNat = s.p.toNat + 8 := by simpa [unitLength] using he.length hf
    rw [finishCall_outLen, hlen, Nat.add_sub_cancel]
    exact hbytes k hk

theorem StreamFramed.advance {s t : State} (hi : Inv s) (h : StreamFramed s) (hstep : advance s = .next t) :
    StreamFramed t := by
  have hw := (writersOf_advance hstep).command
  have hkept : s.phase = .pixels ∨ s.phase = .footer → HeaderStands t := fun hp => by
    have ha : afterHeader s.phase = true ∧ s.phase ≠ .alloc := by rcases hp with hp | hp <;> simp [hp, afterHeader]
    exact HeaderStands.kept (h.header ha.1) (hi.headerWritten ha.1).1 (cursorKept_advance ha.2 hstep) hw
  obtain ⟨hu, ⟨-, rfl⟩ | ⟨-, rfl⟩ | ⟨-, rfl⟩ | ⟨hp, hrun⟩ | ⟨hp, -, rfl⟩ | ⟨hp, -, hpixel⟩ | ⟨hp, hrun⟩⟩ :=
    advance_cases s t hstep
  · exact h
  · rcases validateStep_cases s with ⟨-, hv⟩ | ⟨-, hv⟩ <;> rw [hv] <;> exact streamFramed_of_not_afterHeader rfl
  · rcases allocStep_cases s with ⟨-, ha⟩ | ⟨-, ha⟩ <;> rw [ha] <;> exact streamFramed_of_not_afterHeader rfl
  · obtain ⟨hh, hpt⟩ := headerStands_of_header hi hu hp hw hrun
    exact hh.streamFramed (by simp [hpt])
  · exact (hkept (Or.inl hp)).streamFramed (by simp)
  · refine (hkept (Or.inl hp)).streamFramed ?_
    obtain ⟨-, rfl⟩ | ⟨px, v, units, u, -, hs, he, ht⟩ := pixelStep_next hu.1 hpixel
    · simp [hp]
    · obtain ⟨_, _, rfl⟩ := hs.frame
      obtain ⟨_, _, _, _, rfl⟩ := he.frame
      obtain ⟨-, rfl⟩ | ⟨-, rfl⟩ := ht <;> simp [hp]
  · exact StreamFramed.of_footer hp (hkept (Or.inr hp)) hrun

/-- Settles O49: HEADER and FOOTER write the frame, and no other step touches it. -/
theorem streamFrameKept : Obligations.StreamFrameKept := by
  intro s t hi h hstep
  rcases step_cases s t hstep with ⟨cmd, moves, -, rfl⟩ | ⟨moves, -, hadv⟩
  · rcases startCommand_cases cmd { s with host := moves } with ⟨-, -, hc⟩ | ⟨-, hc⟩ <;> rw [hc]
    · exact streamFramed_of_not_afterHeader rfl
    · exact ⟨h.header, h.marker⟩
  · exact StreamFramed.advance (hi.setHost moves) (s := { s with host := moves }) ⟨h.header, h.marker⟩ hadv

end Sys2Proof.Machine

/-! PROOFS. The sequencer's statements (spec/40_sequencer.md): what the step of each phase answers, START, and its
refusals. -/
namespace Sys2Proof.Machine

/-! ### The block's step, phase by phase -/

theorem quiescent_iff (ph : Phase) : quiescent ph = true ↔ ph = .idle ∨ ph = .done ∨ ph = .fail := by
  cases ph <;> simp [quiescent]

theorem advance_of_faulted {s : State} (h : faulted s = true) : advance s = .fault .afterFault := by
  simp [advance, h]

theorem advance_of_refused {s : State} (hf : faulted s = false) (hr : s.refused = true) :
    advance s = .fault .afterRefusal := by
  simp [advance, hf, hr]

section
variable {s : State} (hu : Unmarked s)
include hu

theorem advance_of_quiescent (hp : quiescent s.phase = true) : advance s = .next s := by
  rcases (quiescent_iff _).mp hp with hp | hp | hp <;> simp [advance, hu.1, hu.2, hp]

theorem advance_of_validate (hp : s.phase = .validate) : advance s = .next (validateStep s) := by
  simp [advance, hu.1, hu.2, hp]

theorem advance_of_alloc (hp : s.phase = .alloc) : advance s = .next (allocStep s) := by
  simp [advance, hu.1, hu.2, hp]

theorem advance_of_header (hp : s.phase = .header) :
    advance s = runUnitsThen [headerUnit s] (enterPhase .pixels) s := by
  simp [advance, hu.1, hu.2, hp, headerStep]

theorem advance_of_footer (hp : s.phase = .footer) : advance s = runUnitsThen [.endMarker] finishCall s := by
  simp [advance, hu.1, hu.2, hp, footerStep]

theorem advance_of_scanEnd (hp : s.phase = .pixels) (hend : s.pos = s.pxLen) :
    advance s = .next (enterPhase .footer s) := by
  simp [advance, hu.1, hu.2, hp, hend, pixelsStep]

end

theorem pixelStep_of_selected {s u : State} {px : Pixel} {units : List Instr} (hpx : fetchPixel s s.pos = some px)
    (hsel : selectUnits px s = some (u, units)) : pixelStep s = runUnitsThen units (retire px) u := by
  simp [pixelStep, hpx, hsel]

/-- Settles O16. -/
theorem stepIsMoveThenBlock : Obligations.StepIsMoveThenBlock :=
  ⟨step_of_start, step_of_silent⟩

/-! ### START -/

theorem legalSel_iff (sel : BitVec 3) : legalSel sel = true ↔ sel = selRun ∨ sel = selDelta ∨ sel = selCache := by
  simp [legalSel, or_assoc]

theorem startCommand_of_accepted {cmd : StartCmd} {s : State} (hacc : accepts s = true)
    (hsel : legalSel cmd.sel = true) : startCommand cmd s = seedCall (latchCommand cmd s) := by
  simp [startCommand, hacc, hsel]

theorem startCommand_of_refused {cmd : StartCmd} {s : State} (h : accepts s = false ∨ legalSel cmd.sel = false) :
    startCommand cmd s = refuse s := by
  rcases h with h | h <;> simp [startCommand, h]

/-- PRESENT's three bits are the three presence operands (R100). -/
theorem presenceOf_bits (cmd : StartCmd) : (presenceOf cmd).getLsbD 0 = cmd.inPresent ∧
    (presenceOf cmd).getLsbD 1 = cmd.lenPresent ∧ (presenceOf cmd).getLsbD 2 = cmd.descPresent := by
  unfold presenceOf
  cases cmd.descPresent <;> cases cmd.lenPresent <;> cases cmd.inPresent <;> decide

/-- The block reads the buffer of its START byte for byte, and nothing past it (R51, R100). -/
theorem memRead_of_buffer {s : State} {buffer : List Byte} (hmem : s.inMem = Memory.ofBytes .IN 0 buffer)
    (hlen : s.inLen = buffer.length) (addr : Word) : memRead s addr = buffer[addr.toNat]? := by
  rw [memRead, hmem, hlen]
  split
  · rename_i hlt
    have hread := Memory.read_ofBytes_in buffer 0 addr.toNat hlt
    rwa [Nat.zero_add] at hread
  · rename_i hge
    exact (List.getElem?_eq_none (by omega)).symm

/-- Settles O19: the accepted START is a seeded call over the latched operands. -/
theorem startBeginsCall : Obligations.StartBeginsCall := by
  intro s cmd moves hhost hphase hu hsel
  have hacc : accepts { s with host := moves } = true := (accepts_iff _).mpr ⟨(quiescent_iff _).mpr hphase, hu⟩
  have hstep := step_of_start s cmd moves hhost
  rw [startCommand_of_accepted hacc ((legalSel_iff _).mpr hsel)] at hstep
  obtain ⟨hin, hlen, hdesc⟩ := presenceOf_bits cmd
  exact ⟨_, hstep, rfl, rfl, rfl, hin, hlen, hdesc, fun hd => by simp [hd], rfl, rfl, fun b => by simp [zeroPixel], rfl, rfl,
    rfl, memRead_of_buffer rfl rfl, rfl, rfl, hu.1, hu.2, rfl, rfl⟩

/-- A refused START leaves the whole step to REFUSED (R205). -/
theorem step_of_refused_start {s : State} {cmd : StartCmd} {moves : List HostMove}
    (hhost : s.host = .start cmd :: moves) (h : accepts s = false ∨ legalSel cmd.sel = false) :
    step s = .next { s with host := moves, refused := true } := by
  rw [step_of_start s cmd moves hhost, startCommand_of_refused (s := { s with host := moves }) h]
  rfl

/-- Settles O20. -/
theorem badSelectorRefused : Obligations.BadSelectorRefused := by
  intro s cmd moves hhost hrun hdelta hcache
  refine step_of_refused_start hhost (Or.inr ?_)
  rw [← Bool.not_eq_true, legalSel_iff]
  exact fun h => h.elim hrun fun h => h.elim hdelta hcache

/-- Settles O21: a START needs a quiescent phase and no mark, and without one such a block waits. -/
theorem outOfTurnRefusedAndQuiescent : Obligations.OutOfTurnRefusedAndQuiescent := by
  refine ⟨fun s cmd moves hhost hturn => step_of_refused_start hhost (Or.inl ?_), fun s moves hsilent hu hphase => ?_⟩
  · rw [← Bool.not_eq_true, accepts_iff]
    rintro ⟨hq, hu⟩
    obtain ⟨hov, hin⟩ := hu.flags
    rcases hturn with hp | hp | hp | hp | hp | hm | hm | hm
    iterate 5 · simp [hp, quiescent] at hq
    · exact absurd (hov.symm.trans hm) (by decide)
    · exact absurd (hin.symm.trans hm) (by decide)
    · exact absurd (hu.2.symm.trans hm) (by decide)
  · rw [step_of_silent s moves hsilent]
    exact advance_of_quiescent (s := { s with host := moves }) hu ((quiescent_iff _).mpr hphase)

/-- Settles O22. -/
theorem markedStateHasNoStep : Obligations.MarkedStateHasNoStep := by
  intro s moves hsilent
  rw [step_of_silent s moves hsilent]
  refine ⟨fun hf => ⟨advance_of_faulted (s := { s with host := moves }) hf, ?_⟩,
    fun hf hr => ⟨advance_of_refused (s := { s with host := moves }) hf hr, ?_⟩⟩
  · simp [goodEnd, hf]
  · simp [goodEnd, hr]

/-! ### Units that fit, and units that do not -/

theorem runUnitsThen_of_fits {i : Instr} {s : State} {m : Memory} (is : List Instr) (rest : State → State)
    (hr : Ready s m) (hfit : s.p.toNat + unitLength (shortLiteral s) i ≤ s.bound.toNat) :
    runUnitsThen (i :: is) rest s =
      runUnitsThen is rest (unitAfter i (stored s m (encode s.cfg (shortLiteral s) i))) := by
  rw [runUnitsThen_cons, exec_of_fits i s m hr hfit]
  simp [faulted_unitAfter, faulted_stored, hr.1]

theorem runUnitsThen_of_overflow {i : Instr} {s : State} {m : Memory} (is : List Instr) (rest : State → State)
    (hr : Ready s m) (hov : s.bound.toNat < s.p.toNat + unitLength (shortLiteral s) i) :
    runUnitsThen (i :: is) rest s = .next (overflowed s m (encode s.cfg (shortLiteral s) i)) := by
  rw [runUnitsThen_cons, exec_of_overflow i s m hr hov]
  simp [faulted_overflowed]

/-- A step of one unit that fits: the unit, then the rest of the step. -/
theorem runUnitsThen_singleton_of_fits {i : Instr} {s : State} {m : Memory} (rest : State → State) (hr : Ready s m)
    (hfit : s.p.toNat + unitLength (shortLiteral s) i ≤ s.bound.toNat) :
    runUnitsThen [i] rest s =
      .next (rest (unitAfter i (stored s m (encode s.cfg (shortLiteral s) i)))) := by
  rw [runUnitsThen_of_fits [] rest hr hfit, runUnitsThen_nil]
  rw [faulted_unitAfter, faulted_stored, hr.1]

/-- Bytes stored in OUT from the cursor on, with the cursor behind them, are what was written. -/
theorem wrote_of_writeList {s t : State} {m : Memory} {bytes : List Byte} (ho : s.out = some m)
    (hto : t.out = some (Memory.writeList .OUT m s.p.toNat bytes)) (htp : t.p.toNat = s.p.toNat + bytes.length) :
    Wrote s t bytes := by
  refine ⟨fun k hk => ?_, fun a ha => ?_, htp⟩
  · simp only [outByte, hto, Memory.read_writeList_out]
    rw [if_pos (by omega), Nat.add_sub_cancel_left, List.getElem?_eq_getElem hk]
  · simp only [outByte, ho, hto, Memory.read_writeList_out]
    rw [if_neg (by omega)]

theorem wrote_stored {s : State} {m : Memory} {bytes : List Byte} (ho : s.out = some m)
    (hfit : s.p.toNat + bytes.length ≤ s.bound.toNat) : Wrote s (stored s m bytes) bytes :=
  wrote_of_writeList ho rfl (stored_p_toNat s m bytes hfit)

theorem wrote_overflowed {s : State} {m : Memory} {bytes : List Byte} (ho : s.out = some m)
    (hov : s.bound.toNat < s.p.toNat + bytes.length) :
    Wrote s (overflowed s m bytes) (bytes.take (s.bound.toNat - s.p.toNat)) :=
  wrote_of_writeList ho rfl (by rw [overflowed_p_toNat, List.length_take]; omega)

/-- A unit that fits is written by a step of it alone, whatever the rest of the step does to the registers. -/
theorem runUnitsThen_singleton_wrote {i : Instr} {s : State} {m : Memory} {rest : State → State} (hr : Ready s m)
    (hfit : s.p.toNat + unitLength (shortLiteral s) i ≤ s.bound.toNat)
    (hrest : ∀ u, (rest u).out = u.out ∧ (rest u).p = u.p) :
    ∃ t, runUnitsThen [i] rest s = .next t ∧ Wrote s t (encode s.cfg (shortLiteral s) i) := by
  refine ⟨_, runUnitsThen_singleton_of_fits rest hr hfit, ?_⟩
  obtain ⟨ho, hp⟩ := hrest (unitAfter i (stored s m (encode s.cfg (shortLiteral s) i)))
  have hafter : ∀ u, (unitAfter i u).out = u.out ∧ (unitAfter i u).p = u.p := fun u => by cases i <;> exact ⟨rfl, rfl⟩
  refine wrote_of_writeList hr.2.2 (ho.trans (hafter _).1) ?_
  rw [hp, (hafter _).2, stored_p_toNat s m _ (by rwa [encode_length])]

/-! ### Validation and allocation -/

theorem step_of_validate {s : State} {moves : List HostMove} (hsilent : Silent s moves) (hu : Unmarked s)
    (hp : s.phase = .validate) : step s = .next (validateStep { s with host := moves }) :=
  (step_of_silent s moves hsilent).trans (advance_of_validate (s := { s with host := moves }) hu hp)

theorem step_of_alloc {s : State} {moves : List HostMove} (hsilent : Silent s moves) (hu : Unmarked s)
    (hp : s.phase = .alloc) : step s = .next (allocStep { s with host := moves }) :=
  (step_of_silent s moves hsilent).trans (advance_of_alloc (s := { s with host := moves }) hu hp)

/-- Settles O32. -/
theorem endTest : Obligations.EndTest := fun s moves hsilent hu hp hend =>
  (step_of_silent s moves hsilent).trans (advance_of_scanEnd (s := { s with host := moves }) hu hp hend)

/-! ### One pixel -/

theorem selected_of_selectUnits {px : Pixel} {s v : State} {units : List Instr}
    (h : selectUnits px s = some (v, units)) : Selected px s v units := by
  rcases selectUnits_cases h with ⟨hsel, h⟩ | ⟨hsel, rfl, rfl⟩ | ⟨hsel, h⟩
  · simpa [h] using selected_run px s hsel
  · exact selected_delta px v hsel
  · simpa [h] using selected_cache px s hsel

/-- A pixel selects at most a flush and a literal (R150, R151, R160, R180). -/
theorem selectUnits_length {px : Pixel} {s v : State} {units : List Instr}
    (h : selectUnits px s = some (v, units)) : units.length ≤ 2 := by
  rcases selectUnits_cases h with ⟨-, h⟩ | ⟨-, -, rfl⟩ | ⟨-, h⟩
  · rcases runSelect_cases px (lastPixel s) s with ⟨-, -, -, hs⟩ | ⟨-, -, hs⟩ | ⟨-, -, hs⟩ | ⟨-, -, hs⟩ <;>
      cases hs.symm.trans h <;> simp
  · simp
  · rcases cacheSelect_cases px s with ⟨-, hs⟩ | ⟨-, hs⟩ <;> cases hs.symm.trans h <;> simp

theorem runUnitsThen_cons_of_exec {i : Instr} {s t : State} (is : List Instr) (rest : State → State)
    (h : exec i s = .next t) :
    runUnitsThen (i :: is) rest s = if faulted t then .next t else runUnitsThen is rest t := by
  rw [runUnitsThen_cons, h]

theorem runUnitsThen_singleton_of_exec {i : Instr} {s t : State} (rest : State → State) (h : exec i s = .next t) :
    runUnitsThen [i] rest s = .next (if faulted t then t else rest t) := by
  rw [runUnitsThen_cons_of_exec [] rest h]
  cases hf : faulted t
  · simp [runUnitsThen_nil rest t hf]
  · rfl

/-- Settles O18, by the number of units selected. -/
theorem pixelStepRunsSelectedUnits : Obligations.PixelStepRunsSelectedUnits := by
  intro s u moves px units hsilent hu hp hlt hpx hsel
  have hstep : step s = runUnitsThen units (retire px) u := by
    rw [step_of_silent s moves hsilent, advance_of_pixels (s := { s with host := moves }) hu hp hlt]
    exact pixelStep_of_selected (s := { s with host := moves }) hpx hsel
  have hfaulted : faulted u = false := (selected_of_selectUnits hsel).faulted_eq.trans hu.1
  rw [hstep]
  refine ⟨?_, ?_, ?_, ?_, selectUnits_length hsel⟩
  · rintro rfl
    exact runUnitsThen_nil _ u hfaulted
  · rintro i t rfl hi
    exact runUnitsThen_singleton_of_exec _ hi
  · rintro i j t rfl hi ht
    rw [runUnitsThen_cons_of_exec _ _ hi, if_pos ht]
  · rintro i j t v rfl hi ht hj
    rw [runUnitsThen_cons_of_exec _ _ hi, if_neg (by simp [ht])]
    exact runUnitsThen_singleton_of_exec _ hj

/-! ### The phase steps -/

/- A namespace of their own: the model's definitions of these steps have the same names. -/
namespace Sequencer

/-- Settles O28. -/
theorem validateStep : Obligations.ValidateStep := by
  intro s moves hsilent hu hp
  rw [step_of_validate hsilent hu hp]
  rcases validateStep_cases { s with host := moves } with ⟨hi, hv⟩ | ⟨hi, hv⟩ <;> rw [hv]
  · exact ⟨fun _ => rfl, fun h => absurd (hi.symm.trans h) (by decide)⟩
  · exact ⟨fun h => absurd (hi.symm.trans h) (by decide), fun _ => rfl⟩

/-- Settles O30: for an accepted descriptor the u32 sizes are exact, and the allocator's answer decides the rest. -/
theorem allocStep : Obligations.AllocStep := by
  intro s moves hsilent hu hp hcfg hvalid
  obtain ⟨hpx, hbound⟩ := computeSizes_exact (s := { s with host := moves }) hcfg hvalid
  refine ⟨_, step_of_alloc hsilent hu hp, ?_⟩
  rcases allocStep_cases { s with host := moves } with ⟨hok, ha⟩ | ⟨hok, ha⟩ <;> rw [ha]
  · exact ⟨hpx, hbound, fun _ => rfl, fun h => absurd (hok.symm.trans h) (by decide)⟩
  · exact ⟨hpx, hbound, fun h => absurd (hok.symm.trans h) (by decide), fun _ => rfl⟩

/-- Settles O31. -/
theorem headerStep : Obligations.HeaderStep := by
  intro s moves m hsilent hr hp hfit
  have hru : Ready { s with host := moves } m := hr
  rw [step_of_silent s moves hsilent, advance_of_header ⟨hru.1, hru.2.1⟩ hp,
    runUnitsThen_singleton_of_fits (i := headerUnit { s with host := moves }) _ hru hfit]
  exact ⟨_, rfl, wrote_stored hr.2.2 hfit, rfl⟩

/-- Settles O33, by whether the end marker fits. -/
theorem footerStep : Obligations.FooterStep := by
  intro s moves m hsilent hr hp
  have hru : Ready { s with host := moves } m := hr
  rw [step_of_silent s moves hsilent, advance_of_footer ⟨hru.1, hru.2.1⟩ hp]
  refine ⟨fun hfit => ?_, fun hov => ?_⟩
  · rw [runUnitsThen_singleton_of_fits (i := .endMarker) _ hru hfit]
    exact ⟨_, rfl, wrote_stored hr.2.2 hfit, rfl⟩
  · rw [runUnitsThen_of_overflow (i := .endMarker) _ _ hru hov]
    exact ⟨_, rfl, wrote_overflowed hr.2.2 hov, rfl⟩

end Sequencer

end Sys2Proof.Machine

/-! PROOFS. Progress, termination, and independence of what ran before (spec/40_sequencer.md R110-R114). -/
namespace Sys2Proof.Machine

/-! ### Progress -/

theorem step_of_no_move {s : State} (h : s.host = []) : step s = advance s := by
  simp [step, boundary, h]

theorem Ready.unitAfter_stored {s : State} {m : Memory} (hr : Ready s m) (i : Instr) (bytes : List Byte) :
    Ready (unitAfter i (stored s m bytes)) (Memory.writeList .OUT m s.p.toNat bytes) := by
  cases i <;> exact ⟨hr.1, hr.2.1, rfl⟩

/-- Units that may be written answer a next state, fitting or not (R54, R203). -/
theorem runUnitsThen_of_ready (units : List Instr) (rest : State → State) {s : State} {m : Memory} (hr : Ready s m) :
    ∃ t, runUnitsThen units rest s = .next t := by
  induction units generalizing s m with
  | nil => exact ⟨_, runUnitsThen_nil rest s hr.1⟩
  | cons i is ih =>
    by_cases hfit : s.p.toNat + unitLength (shortLiteral s) i ≤ s.bound.toNat
    · rw [runUnitsThen_of_fits is rest hr hfit]
      exact ih (hr.unitAfter_stored i _)
    · exact ⟨_, runUnitsThen_of_overflow is rest hr (by omega)⟩

theorem selectUnits_of_selRun (px : Pixel) {s : State} (h : s.sel = selRun) :
    selectUnits px s = some (runSelect px (lastPixel s) s) := by
  simp [selectUnits, h]

theorem selectUnits_of_selDelta (px : Pixel) {s : State} (h : s.sel = selDelta) :
    selectUnits px s = some (s, [deltaUnit px s.prev]) := by
  simp [selectUnits, h, selRun, selDelta, deltaSelect]

theorem selectUnits_of_selCache (px : Pixel) {s : State} (h : s.sel = selCache) :
    selectUnits px s = some (cacheSelect px s) := by
  simp [selectUnits, h, selRun, selDelta, selCache]

theorem selectUnits_of_legalSel {s : State} (px : Pixel) (h : legalSel s.sel = true) :
    ∃ v units, selectUnits px s = some (v, units) := by
  rcases (legalSel_iff _).mp h with h | h | h
  · exact ⟨_, _, selectUnits_of_selRun px h⟩
  · exact ⟨_, _, selectUnits_of_selDelta px h⟩
  · exact ⟨_, _, selectUnits_of_selCache px h⟩

/-- A pixel step of a legal strategy answers a next state (R106). -/
theorem pixelStep_of_ready {s : State} {m : Memory} (hr : Ready s m) (hsel : legalSel s.sel = true) :
    ∃ t, pixelStep s = .next t := by
  cases hpx : fetchPixel s s.pos with
  | none => exact ⟨_, pixelStep_of_overrun hpx⟩
  | some px =>
    obtain ⟨v, units, hv⟩ := selectUnits_of_legalSel px hsel
    rw [pixelStep_of_selected hpx hv]
    obtain ⟨_, _, rfl⟩ := (selected_of_selectUnits hv).frame
    exact runUnitsThen_of_ready units (retire px) (m := m) hr

theorem Inv.ready {s : State} (h : Inv s) (hu : Unmarked s) (ho : hasOut s.phase = true) : ∃ m, Ready s m := by
  obtain ⟨m, hm⟩ := Option.isSome_iff_exists.mp (h.outPresent.trans ho)
  exact ⟨m, hu.1, hu.2, hm⟩

theorem advance_of_inv {s : State} (h : Inv s) (hu : Unmarked s) : ∃ t, advance s = .next t := by
  cases hp : s.phase with
  | idle => exact ⟨_, advance_of_quiescent hu (by simp [hp, quiescent])⟩
  | validate => exact ⟨_, advance_of_validate hu hp⟩
  | alloc => exact ⟨_, advance_of_alloc hu hp⟩
  | header =>
    obtain ⟨m, hr⟩ := h.ready hu (by simp [hp, hasOut])
    rw [advance_of_header hu hp]
    exact runUnitsThen_of_ready _ _ hr
  | pixels =>
    by_cases hend : s.pos = s.pxLen
    · exact ⟨_, advance_of_scanEnd hu hp hend⟩
    · obtain ⟨m, hr⟩ := h.ready hu (by simp [hp, hasOut])
      have hle := (h.scan (by simp [hp, afterHeader])).1
      have hne : s.pos.toNat ≠ s.pxLen.toNat := fun he => hend (BitVec.eq_of_toNat_eq he)
      rw [advance_of_pixels hu hp (by omega)]
      exact pixelStep_of_ready hr (h.selLegal (by simp [hp]))
  | footer =>
    obtain ⟨m, hr⟩ := h.ready hu (by simp [hp, hasOut])
    rw [advance_of_footer hu hp]
    exact runUnitsThen_of_ready _ _ hr
  | done => exact ⟨_, advance_of_quiescent hu (by simp [hp, quiescent])⟩
  | fail => exact ⟨_, advance_of_quiescent hu (by simp [hp, quiescent])⟩

theorem start_or_silent (s : State) :
    (∃ cmd moves, s.host = .start cmd :: moves) ∨ ∃ moves, Silent s moves := by
  cases hh : s.host with
  | nil => exact Or.inr ⟨[], Or.inr ⟨hh, rfl⟩⟩
  | cons move moves =>
    cases move with
    | quiet => exact Or.inr ⟨moves, Or.inl hh⟩
    | start cmd => exact Or.inl ⟨cmd, moves, rfl⟩

/-- Settles O51: a START always takes its step, and each phase's own step answers under the invariant. -/
theorem unmarkedStatesProgress : Obligations.UnmarkedStatesProgress := by
  intro s h hu
  rcases start_or_silent s with ⟨cmd, moves, hhost⟩ | ⟨moves, hsilent⟩
  · exact ⟨_, step_of_start s cmd moves hhost⟩
  · rw [step_of_silent s moves hsilent]
    exact advance_of_inv (h.setHost moves) hu

/-! ### Termination -/

/-- An upper bound on the steps a call has left (R113): one per pixel and one for each other phase step. -/
def stepsLeft (s : State) : Nat :=
  match s.phase with
  | .idle => 0
  | .validate => pixelCount s + 5
  | .alloc => pixelCount s + 4
  | .header => pixelCount s + 3
  | .pixels => (s.pxLen.toNat - s.pos.toNat) / s.channels.toNat + 2
  | .footer => 1
  | .done => 0
  | .fail => 0

/-- A pixel step leaves one pixel less (R106, R107). -/
theorem Inv.pixelsLeft_retire {s : State} (h : Inv s) (hp : s.phase = .pixels) (hlt : s.pos.toNat < s.pxLen.toNat) :
    (s.pxLen.toNat - (s.pos + s.channels.setWidth 32).toNat) / s.channels.toNat <
      (s.pxLen.toNat - s.pos.toNat) / s.channels.toNat := by
  have hleft := h.pixel_left hp hlt
  have hb := s.pxLen.isLt
  have hpos : 0 < s.channels.toNat := by
    rcases channels_toNat (h.invalid_eq_false hp) with hc | hc <;> omega
  have hnext : (s.pos + s.channels.setWidth 32).toNat = s.pos.toNat + s.channels.toNat := by
    rw [BitVec.toNat_add, BitVec.toNat_setWidth]
    omega
  rw [hnext, Nat.div_eq_sub_div hpos (show s.channels.toNat ≤ s.pxLen.toNat - s.pos.toNat by omega), Nat.sub_add_eq]
  exact Nat.lt_succ_self _

/-- HEADER leaves as many pixels as the image has. -/
theorem Inv.pixelsLeft_header {s : State} (h : Inv s) (hp : s.phase = .header) :
    (s.pxLen.toNat - s.pos.toNat) / s.channels.toNat = pixelCount s := by
  obtain ⟨hpx, -⟩ := h.sizes (by simp [hp, hasOut])
  obtain ⟨-, hpos, -⟩ := h.fresh (by simp [hp, beforeBytes])
  have hc : 0 < s.channels.toNat := by
    rcases channels_toNat (h.descriptor (by simp [hp, validated])) with hc | hc <;> omega
  rw [hpx, hpos, BitVec.toNat_ofNat, Nat.zero_mod, Nat.sub_zero, Nat.mul_div_cancel _ hc]

/-- A running block's step comes nearer to the call's end, unless it records a fault. -/
theorem stepsLeft_lt_of_advance {s t : State} (h : Inv s) (hq : quiescent s.phase = false) (hstep : advance s = .next t) :
    faulted t = true ∨ (t.phase ≠ .idle ∧ stepsLeft t < stepsLeft s) := by
  obtain ⟨hu, ⟨hq', -⟩ | ⟨hp, rfl⟩ | ⟨hp, rfl⟩ | ⟨hp, hrun⟩ | ⟨hp, -, rfl⟩ | ⟨hp, hlt, hpixel⟩ | ⟨hp, hrun⟩⟩ :=
    advance_cases s t hstep
  · exact absurd (hq.symm.trans hq') (by decide)
  · right
    rcases validateStep_cases s with ⟨-, hv⟩ | ⟨-, hv⟩ <;> rw [hv] <;> simp [stepsLeft, hp, pixelCount]
  · right
    rcases allocStep_cases s with ⟨-, ha⟩ | ⟨-, ha⟩ <;> rw [ha] <;> simp [stepsLeft, hp, pixelCount]
  · obtain ⟨u, he, ⟨hf, rfl⟩ | ⟨-, rfl⟩⟩ := emitted_of_runUnitsThen hu.1 hrun
    · exact Or.inl (by simp [faulted, hf])
    · have hleft := h.pixelsLeft_header hp
      obtain ⟨_, _, _, _, rfl⟩ := he.frame
      exact Or.inr (by simp [stepsLeft, hp, hleft])
  · exact Or.inr (by simp [stepsLeft, hp])
  · obtain ⟨-, rfl⟩ | ⟨px, v, units, u, -, hs, he, ⟨hf, rfl⟩ | ⟨-, rfl⟩⟩ := pixelStep_next hu.1 hpixel
    · exact Or.inl (by simp [faulted])
    · exact Or.inl (by simp [faulted, hf])
    · have hleft := h.pixelsLeft_retire hp hlt
      obtain ⟨_, _, rfl⟩ := hs.frame
      obtain ⟨_, _, _, _, rfl⟩ := he.frame
      exact Or.inr (by simpa [stepsLeft, hp] using hleft)
  · obtain ⟨u, he, ⟨hf, rfl⟩ | ⟨-, rfl⟩⟩ := emitted_of_runUnitsThen hu.1 hrun
    · exact Or.inl (by simp [faulted, hf])
    · exact Or.inr (by simp [stepsLeft, hp])

theorem run_succ_of_step {M : Host.Core} {s u : M.State} (k : Nat) (h : M.step s = .next u) :
    M.run (k + 1) s = M.run k u := by
  rw [Host.Core.run, h]

theorem run_succ_next {M : Host.Core} {s t : M.State} {k : Nat} (h : M.run (k + 1) s = .next t) :
    ∃ u, M.step s = .next u ∧ M.run k u = .next t := by
  rw [Host.Core.run] at h
  cases hs : M.step s with
  | next u => exact ⟨u, rfl, by rwa [hs] at h⟩
  | fault f => rw [hs] at h; cases h
  | refused r => rw [hs] at h; cases h

theorem ended_of_quiescent {s : State} (hq : quiescent s.phase = true) (hp : s.phase ≠ .idle) : ended s = true := by
  rcases (quiescent_iff _).mp hq with h | h | h
  · exact absurd h hp
  · simp [ended, h]
  · simp [ended, h]

theorem quiescent_of_stepsLeft {s : State} (h : stepsLeft s = 0) : quiescent s.phase = true := by
  cases hp : s.phase <;> simp [stepsLeft, hp, quiescent] at h ⊢

/-- A call left alone ends, or records a fault, within the steps it has left (R113). -/
theorem Inv.call_ends {s : State} {n : Nat} (h : Inv s) (hu : Unmarked s) (hhost : s.host = []) (hp : s.phase ≠ .idle)
    (hn : stepsLeft s ≤ n) :
    ∃ k t, k ≤ n ∧ Sys2Proof.core.run k s = .next t ∧ (ended t = true ∨ faulted t = true) := by
  induction n generalizing s with
  | zero => exact ⟨0, s, Nat.le_refl 0, rfl, Or.inl (ended_of_quiescent (quiescent_of_stepsLeft (by omega)) hp)⟩
  | succ n ih =>
    cases hq : quiescent s.phase with
    | true => exact ⟨0, s, Nat.zero_le _, rfl, Or.inl (ended_of_quiescent hq hp)⟩
    | false =>
      obtain ⟨t, hadv⟩ := advance_of_inv h hu
      have hstep : step s = .next t := (step_of_no_move hhost).trans hadv
      cases hf : faulted t with
      | true => exact ⟨1, t, by omega, run_succ_of_step 0 hstep, Or.inr hf⟩
      | false =>
        obtain ⟨-, -, -, -, -, -, -, -, -, hrefused, -, -, hhost'⟩ := (writersOf_advance hadv).command
        obtain ⟨hp', hlt⟩ := (stepsLeft_lt_of_advance h hq hadv).resolve_left (by simp [hf])
        obtain ⟨k, u, hk, hrun, hend⟩ :=
          ih (h.advance hadv) ⟨hf, hrefused.trans hu.2⟩ (hhost'.trans hhost) hp' (by omega)
        exact ⟨k + 1, u, by omega, (run_succ_of_step k hstep).trans hrun, hend⟩

/-- Settles O52: from VALIDATE the steps left are at most W*H + 5. -/
theorem everyCallTerminates : Obligations.EveryCallTerminates := fun s h hu hp hhost =>
  h.call_ends hu hhost (by simp [hp]) (by simp [stepsLeft, hp])

/-! ### Two blocks in the same call -/

/-- `s` with the registers that a START leaves open (R38, R23) taken from `v`. -/
def withOpen (s v : State) : State :=
  { s with
    freeCount := v.freeCount, width := v.width, height := v.height, channels := v.channels,
    colorspace := v.colorspace, bound := v.bound, pxLen := v.pxLen, outLen := v.outLen }

def SameDescriptor (s t : State) : Prop :=
  t.width = s.width ∧ t.height = s.height ∧ t.channels = s.channels ∧ t.colorspace = s.colorspace

/-- Two blocks at the same point of the same call: they differ at most in registers that START left open and that no step
has written since. -/
structure SameCall (s t : State) : Prop where
  rest : ∃ v, t = withOpen s v
  /-- A descriptor was latched by both (R100). -/
  known : s.present.getLsbD 2 = true → SameDescriptor s t
  /-- Without a descriptor no call passes validation (R120). -/
  described : validated s.phase = true → s.present.getLsbD 2 = true
  sizes : hasOut s.phase = true → t.bound = s.bound ∧ t.pxLen = s.pxLen
  outLen : s.phase = .done → t.outLen = s.outLen

/-- Once ALLOC is past only OUT_LEN is open. -/
def relabel (f : Nat) (w : Word) (s : State) : State := { s with freeCount := f, outLen := w }

theorem validated_of_hasOut {ph : Phase} (h : hasOut ph = true) : validated ph = true := by
  cases ph <;> simp [hasOut, validated] at h ⊢

theorem SameCall.eq_relabel {s t : State} (h : SameCall s t) (ho : hasOut s.phase = true) :
    ∃ f w, t = relabel f w s := by
  obtain ⟨hw, hh, hc, hcs⟩ := h.known (h.described (validated_of_hasOut ho))
  obtain ⟨hb, hpx⟩ := h.sizes ho
  obtain ⟨v, rfl⟩ := h.rest
  simp only [withOpen] at hw hh hc hcs hb hpx
  exact ⟨v.freeCount, v.outLen, by simp only [withOpen, relabel, hw, hh, hc, hcs, hb, hpx]⟩

theorem sameCall_relabel {f : Nat} {w : Word} {s : State} (hd : s.present.getLsbD 2 = true)
    (hlen : s.phase = .done → w = s.outLen) : SameCall s (relabel f w s) :=
  ⟨⟨relabel f w s, rfl⟩, fun _ => ⟨rfl, rfl, rfl, rfl⟩, fun _ => hd, fun _ => ⟨rfl, rfl⟩, hlen⟩

/-! ### No unit and no selection reads an open register -/

theorem unitAfter_relabel (f : Nat) (w : Word) (i : Instr) (s : State) :
    unitAfter i (relabel f w s) = relabel f w (unitAfter i s) := by
  cases i <;> rfl

theorem exec_relabel {i : Instr} {s t : State} (f : Nat) (w : Word) (h : exec i s = .next t) :
    exec i (relabel f w s) = .next (relabel f w t) := by
  obtain ⟨m, hr, ⟨hfit, rfl⟩ | ⟨hov, rfl⟩⟩ := exec_next i s t h
  · rw [← unitAfter_relabel]
    exact exec_of_fits i (relabel f w s) m hr hfit
  · exact exec_of_overflow i (relabel f w s) m hr hov

theorem faulted_relabel (f : Nat) (w : Word) (s : State) : faulted (relabel f w s) = faulted s := rfl

theorem runSelect_relabel (f : Nat) (w : Word) (px : Pixel) (last : Bool) (s : State) :
    runSelect px last (relabel f w s) = (relabel f w (runSelect px last s).1, (runSelect px last s).2) := by
  unfold runSelect
  by_cases hp : px = s.prev
  · rw [if_pos hp, if_pos (show px = (relabel f w s).prev from hp)]
    rfl
  · rw [if_neg hp, if_neg (show ¬ px = (relabel f w s).prev from hp)]
    rfl

theorem cacheSelect_relabel (f : Nat) (w : Word) (px : Pixel) (s : State) :
    cacheSelect px (relabel f w s) = (relabel f w (cacheSelect px s).1, (cacheSelect px s).2) := by
  unfold cacheSelect
  by_cases hh : cacheHit s px = true
  · rw [if_pos hh, if_pos (show cacheHit (relabel f w s) px = true from hh)]
    rfl
  · rw [if_neg hh, if_neg (show ¬ cacheHit (relabel f w s) px = true from hh)]
    rfl

theorem selectUnits_relabel {px : Pixel} {s v : State} {units : List Instr} (f : Nat) (w : Word)
    (h : selectUnits px s = some (v, units)) :
    selectUnits px (relabel f w s) = some (relabel f w v, units) := by
  rcases selectUnits_cases h with ⟨hsel, hs⟩ | ⟨hsel, rfl, rfl⟩ | ⟨hsel, hs⟩
  · rw [selectUnits_of_selRun px (s := relabel f w s) hsel, runSelect_relabel]
    exact congrArg (fun r => some (relabel f w r.1, r.2)) hs
  · exact selectUnits_of_selDelta px (s := relabel f w v) hsel
  · rw [selectUnits_of_selCache px (s := relabel f w s) hsel, cacheSelect_relabel, hs]

/-- Units run alike in both blocks, and so does the rest of their step if it keeps them in the same call. -/
theorem runUnitsThen_relabel {units : List Instr} {rest : State → State} {s t : State} (f : Nat) (w : Word)
    (hf : faulted s = false) (h : runUnitsThen units rest s = .next t)
    (hsame : ∀ u, u.phase = s.phase → u.present = s.present →
      SameCall u (relabel f w u) ∧ SameCall (rest u) (rest (relabel f w u))) :
    ∃ t', runUnitsThen units rest (relabel f w s) = .next t' ∧ SameCall t t' := by
  induction units generalizing s with
  | nil =>
    rw [runUnitsThen_nil rest s hf] at h
    cases h
    exact ⟨_, runUnitsThen_nil rest (relabel f w s) hf, (hsame s rfl rfl).2⟩
  | cons i is ih =>
    rw [runUnitsThen_cons] at h
    cases hi : exec i s with
    | next u =>
      obtain ⟨_, _, _, _, hu⟩ := (emitted_of_exec hi).frame
      have hp : u.phase = s.phase := by rw [hu]
      have hpr : u.present = s.present := by rw [hu]
      rw [runUnitsThen_cons_of_exec is rest (exec_relabel f w hi)]
      rw [hi] at h
      cases hfu : faulted u with
      | true =>
        simp only [hfu, if_true] at h
        rw [← Host.Outcome.next.inj h]
        exact ⟨_, if_pos hfu, (hsame u hp hpr).1⟩
      | false =>
        simp only [hfu, Bool.false_eq_true, if_false] at h
        rw [faulted_relabel, hfu, if_neg (by decide)]
        exact ih hfu h fun x hx hx' => hsame x (hx.trans hp) (hx'.trans hpr)
    | fault r => rw [hi] at h; cases h
    | refused r => rw [hi] at h; cases h

/-! ### Both blocks take the same steps -/

theorem invalid_of_no_descriptor {s : State} (h : s.present.getLsbD 2 = false) : invalid s = true := by
  simp only [invalid, h, Bool.not_false, Bool.or_true, Bool.true_or]

theorem present_of_valid {s : State} (h : invalid s = false) : s.present.getLsbD 2 = true := by
  rw [← Bool.not_eq_false]
  exact fun hd => absurd (h.symm.trans (invalid_of_no_descriptor hd)) (by decide)

/-- The predicate `Invalid` reads the descriptor only where there is one (R120). -/
theorem SameCall.invalid_eq {s t : State} (h : SameCall s t) : invalid t = invalid s := by
  have hknown := h.known
  obtain ⟨v, rfl⟩ := h.rest
  cases hd : s.present.getLsbD 2 with
  | false => exact (invalid_of_no_descriptor (s := withOpen s v) hd).trans (invalid_of_no_descriptor hd).symm
  | true =>
    obtain ⟨hw, hh, hc, hcs⟩ := hknown hd
    unfold invalid guardRejects
    rw [hw, hh, hc, hcs]
    rfl

/-- A failed call: nothing more is known of the open registers. -/
theorem sameCall_failWith {s t : State} (h : SameCall s t) (e : ErrorKind) :
    SameCall (failWith e s) (failWith e t) := by
  have hknown := h.known
  obtain ⟨v, rfl⟩ := h.rest
  exact ⟨⟨v, rfl⟩, hknown, (nomatch ·), (nomatch ·), (nomatch ·)⟩

theorem sameCall_validateStep {s t : State} (h : SameCall s t) : SameCall (validateStep s) (validateStep t) := by
  have hknown := h.known
  cases hi : invalid s with
  | true =>
    simp only [validateStep, hi, h.invalid_eq, if_true]
    exact sameCall_failWith h _
  | false =>
    simp only [validateStep, hi, h.invalid_eq, Bool.false_eq_true, if_false]
    obtain ⟨v, rfl⟩ := h.rest
    exact ⟨⟨v, rfl⟩, hknown, fun _ => present_of_valid hi, (nomatch ·), (nomatch ·)⟩

/-- ALLOC closes both sizes: each is computed from the descriptor (R124). -/
theorem sameCall_computeSizes {s t : State} (h : SameCall s t) (hp : s.phase = .alloc) :
    SameCall (computeSizes s) (computeSizes t) ∧ (computeSizes t).bound = (computeSizes s).bound ∧
      (computeSizes t).pxLen = (computeSizes s).pxLen := by
  have hd := h.described (by simp [hp, validated])
  obtain ⟨hw, hh, hc, hcs⟩ := h.known hd
  have hrest : computeSizes t = withOpen (computeSizes s) (computeSizes t) := by
    obtain ⟨v, rfl⟩ := h.rest
    rfl
  refine ⟨⟨⟨_, hrest⟩, fun _ => by simp [SameDescriptor, hw, hh, hc, hcs], fun _ => by rwa [computeSizes_present],
    fun hv => ?_, fun hv => ?_⟩, ?_, ?_⟩
  · simp [hp, hasOut] at hv
  · simp [hp] at hv
  · rw [computeSizes_bound, computeSizes_bound, hw, hh, hc]
  · rw [computeSizes_pxLen, computeSizes_pxLen, hw, hh, hc]

/-- Once both sizes agree HEADER follows. -/
theorem sameCall_enterHeader {s t : State} (h : SameCall s t) (hd : s.present.getLsbD 2 = true)
    (hsizes : t.bound = s.bound ∧ t.pxLen = s.pxLen) :
    SameCall (enterPhase .header (allocateOut s)) (enterPhase .header (allocateOut t)) := by
  have hknown := h.known
  obtain ⟨v, rfl⟩ := h.rest
  exact ⟨⟨v, rfl⟩, hknown, fun _ => hd, fun _ => hsizes, (nomatch ·)⟩

theorem sameCall_allocStep {s t : State} (h : SameCall s t) (hp : s.phase = .alloc) :
    SameCall (allocStep s) (allocStep t) := by
  obtain ⟨hsame, hsizes⟩ := sameCall_computeSizes h hp
  have hd := h.described (by simp [hp, validated])
  have hok : t.allocOk = s.allocOk := by
    obtain ⟨v, rfl⟩ := h.rest
    rfl
  cases ha : s.allocOk with
  | true =>
    simp only [allocStep, computeSizes_allocOk, hok, ha, if_true]
    exact sameCall_enterHeader hsame (by rwa [computeSizes_present]) hsizes
  | false =>
    simp only [allocStep, computeSizes_allocOk, hok, ha, Bool.false_eq_true, if_false]
    exact sameCall_failWith hsame _

theorem pixelStep_selectUnits {s t : State} (h : pixelStep s = .next t) :
    (fetchPixel s s.pos = none ∧ t = raiseInOverrun s) ∨
    ∃ px v units, fetchPixel s s.pos = some px ∧ selectUnits px s = some (v, units) ∧
      runUnitsThen units (retire px) v = .next t := by
  cases hpx : fetchPixel s s.pos with
  | none =>
    rw [pixelStep_of_overrun hpx] at h
    cases h
    exact Or.inl ⟨rfl, rfl⟩
  | some px =>
    cases hv : selectUnits px s with
    | none => simp [pixelStep, hpx, hv] at h
    | some r => exact Or.inr ⟨px, r.1, r.2, rfl, hv, (pixelStep_of_selected hpx hv).symm.trans h⟩

theorem pixelStep_relabel {s t : State} (f : Nat) (w : Word) (hf : faulted s = false) (hp : s.phase = .pixels)
    (hd : s.present.getLsbD 2 = true) (h : pixelStep s = .next t) :
    ∃ t', pixelStep (relabel f w s) = .next t' ∧ SameCall t t' := by
  rcases pixelStep_selectUnits h with ⟨hpx, rfl⟩ | ⟨px, v, units, hpx, hv, hrun⟩
  · exact ⟨_, pixelStep_of_overrun (s := relabel f w s) hpx,
      sameCall_relabel (s := raiseInOverrun s) hd fun hn => by simp [hp] at hn⟩
  · rw [pixelStep_of_selected (s := relabel f w s) hpx (selectUnits_relabel f w hv)]
    have hs := selected_of_selectUnits hv
    refine runUnitsThen_relabel f w (hs.faulted_eq.trans hf) hrun fun u hup hupr => ?_
    obtain ⟨_, _, rfl⟩ := hs.frame
    have hud : u.present.getLsbD 2 = true := hupr ▸ hd
    exact ⟨sameCall_relabel hud fun hn => by simp [hup, hp] at hn,
      sameCall_relabel (s := retire px u) hud fun hn => by simp [hup, hp] at hn⟩

/-- Two blocks at the same point of a call take the same step (R114). -/
theorem sameCall_advance {s t s' : State} (h : SameCall s t) (hstep : advance s = .next s') :
    ∃ t', advance t = .next t' ∧ SameCall s' t' := by
  have hphase : t.phase = s.phase := by
    obtain ⟨v, rfl⟩ := h.rest
    rfl
  obtain ⟨hu, hcases⟩ := advance_cases s s' hstep
  have hut : Unmarked t := by
    obtain ⟨v, rfl⟩ := h.rest
    exact hu
  have hd : hasOut s.phase = true → s.present.getLsbD 2 = true := fun ho => h.described (validated_of_hasOut ho)
  obtain ⟨hq, rfl⟩ | ⟨hp, rfl⟩ | ⟨hp, rfl⟩ | ⟨hp, hrun⟩ | ⟨hp, hend, rfl⟩ | ⟨hp, hlt, hpixel⟩ | ⟨hp, hrun⟩ := hcases
  · exact ⟨t, advance_of_quiescent hut (by rwa [hphase]), h⟩
  · exact ⟨_, advance_of_validate hut (hphase.trans hp), sameCall_validateStep h⟩
  · exact ⟨_, advance_of_alloc hut (hphase.trans hp), sameCall_allocStep h hp⟩
  · have hd := hd (by simp [hp, hasOut])
    obtain ⟨f, w, rfl⟩ := h.eq_relabel (by simp [hp, hasOut])
    rw [advance_of_header hut hp]
    refine runUnitsThen_relabel f w hu.1 hrun fun u hup hupr => ?_
    have hud : u.present.getLsbD 2 = true := hupr ▸ hd
    exact ⟨sameCall_relabel hud fun hn => by simp [hup, hp] at hn,
      sameCall_relabel (s := enterPhase .pixels u) hud fun hn => by cases hn⟩
  · have hd := hd (by simp [hp, hasOut])
    obtain ⟨f, w, rfl⟩ := h.eq_relabel (by simp [hp, hasOut])
    exact ⟨_, advance_of_scanEnd hut hp hend,
      sameCall_relabel (s := enterPhase .footer s) hd fun hn => by cases hn⟩
  · have hd := hd (by simp [hp, hasOut])
    obtain ⟨f, w, rfl⟩ := h.eq_relabel (by simp [hp, hasOut])
    rw [advance_of_pixels hut hp hlt]
    exact pixelStep_relabel f w hu.1 hp hd hpixel
  · have hd := hd (by simp [hp, hasOut])
    obtain ⟨f, w, rfl⟩ := h.eq_relabel (by simp [hp, hasOut])
    rw [advance_of_footer hut hp]
    refine runUnitsThen_relabel f w hu.1 hrun fun u hup hupr => ?_
    have hud : u.present.getLsbD 2 = true := hupr ▸ hd
    exact ⟨sameCall_relabel hud fun hn => by simp [hup, hp] at hn,
      sameCall_relabel (f := f) (s := finishCall u) hud fun _ => rfl⟩

theorem SameCall.run {s t s' : State} {k : Nat} (h : SameCall s t) (hhost : s.host = [])
    (hrun : Sys2Proof.core.run k s = .next s') :
    ∃ t', Sys2Proof.core.run k t = .next t' ∧ SameCall s' t' := by
  induction k generalizing s t with
  | zero =>
    cases hrun
    exact ⟨t, rfl, h⟩
  | succ k ih =>
    obtain ⟨u, hstep, hrun⟩ := run_succ_next hrun
    have hstep : advance s = .next u := (step_of_no_move hhost).symm.trans hstep
    have hthost : t.host = [] := by
      obtain ⟨v, rfl⟩ := h.rest
      exact hhost
    obtain ⟨v, hv, hsame⟩ := sameCall_advance h hstep
    obtain ⟨-, -, -, -, -, -, -, -, -, -, -, -, hhost'⟩ := (writersOf_advance hstep).command
    obtain ⟨t', ht', hsame'⟩ := ih hsame (hhost'.trans hhost) hrun
    exact ⟨t', (run_succ_of_step k ((step_of_no_move hthost).trans hv)).trans ht', hsame'⟩

/-! ### A START forgets the past -/

/-- An accepted START writes, or leaves open, every register that an earlier call wrote (R38, R100). -/
theorem sameCall_start {s t : State} (cmd : StartCmd) (hs : accepts s = true) (ht : accepts t = true)
    (hcfg : s.cfg = t.cfg) (hhost : s.host = t.host) :
    SameCall (seedCall (latchCommand cmd s)) (seedCall (latchCommand cmd t)) := by
  obtain ⟨-, hus⟩ := (accepts_iff s).mp hs
  obtain ⟨-, hut⟩ := (accepts_iff t).mp ht
  obtain ⟨hso, hsi⟩ := hus.flags
  obtain ⟨hto, hti⟩ := hut.flags
  refine ⟨⟨seedCall (latchCommand cmd t), ?_⟩, fun hd => ?_, (nomatch ·), (nomatch ·), (nomatch ·)⟩
  · simp only [seedCall, latchCommand, withOpen, hcfg, hhost, hso, hsi, hto, hti, hus.2, hut.2]
  · have hdesc : cmd.descPresent = true := (presenceOf_bits cmd).2.2.symm.trans hd
    simp [SameDescriptor, hdesc]

theorem SameCall.observed {s t : State} (h : SameCall s t) :
    result t = result s ∧ t.phase = s.phase ∧ t.err = s.err ∧ faulted t = faulted s := by
  have hlen := h.outLen
  obtain ⟨v, rfl⟩ := h.rest
  refine ⟨?_, rfl, rfl, rfl⟩
  by_cases hp : s.phase = .done
  · unfold result
    rw [hlen hp]
    rfl
  · exact (if_neg hp).trans (if_neg hp).symm

/-- Settles O53: after the START both blocks are at the same point of the same call, and every step keeps them there. -/
theorem resultForgetsThePast : Obligations.ResultForgetsThePast := by
  intro s1 s2 cmd k t1 hacc1 hacc2 hcfg hhost1 hhost2 hsel hrun
  have hstep : ∀ s : State, accepts s = true → s.host = [.start cmd] →
      step s = .next (seedCall (latchCommand cmd { s with host := [] })) := fun s hacc hhost => by
    rw [step_of_start s cmd [] hhost, startCommand_of_accepted (s := { s with host := [] }) hacc hsel]
  have hsame := sameCall_start (s := { s1 with host := [] }) (t := { s2 with host := [] }) cmd hacc1 hacc2 hcfg rfl
  obtain ⟨t2, hrun2, h⟩ := hsame.run rfl ((run_succ_of_step k (hstep s1 hacc1 hhost1)).symm.trans hrun)
  exact ⟨t2, (run_succ_of_step k (hstep s2 hacc2 hhost2)).trans hrun2, h.observed⟩

end Sys2Proof.Machine

/-! PROOFS. The step after a placement (log entry 16): the unit that is placed is the unit the step selects and writes. -/
namespace Sys2Proof.Machine

/-! ### The placed pixel -/

theorem fetchPixel_of_pixelBytes {s : State} {px : Pixel} (hmem : s.inMem = Memory.ofBytes .IN 0 (pixelBytes px))
    (hlen : s.inLen = (pixelBytes px).length) (hc : s.channels = 4#8) : fetchPixel s 0#32 = some px := by
  simp [fetchPixel, memRead_of_buffer hmem hlen, hc, pixelBytes]

/-- A state that holds a placed pixel, whatever the strategy compares it with. -/
def PlacedPixel (sel : BitVec 3) (px : Pixel) (s u : State) : Prop :=
  ∃ run cache prev, u = { placePixel sel px s with run := run, cache := cache, prev := prev }

/-- The next step fetches the placed pixel and writes the one unit its strategy selects: 13 bytes of room are left. -/
theorem PlacedPixel.step_wrote {sel : BitVec 3} {px : Pixel} {s u v : State} {i : Instr} (hu : PlacedPixel sel px s u)
    (hsel : selectUnits px u = some (v, [i])) (hlen : unitLength false i ≤ 13) :
    ∃ t, step u = .next t ∧ Wrote u t (encode defaultConfig false i) := by
  obtain ⟨_, _, _, rfl⟩ := hu
  rw [step_of_no_move rfl, advance_of_pixels ⟨rfl, rfl⟩ rfl (show (0#32).toNat < (4#32).toNat by decide),
    pixelStep_of_selected (fetchPixel_of_pixelBytes rfl rfl rfl) hsel]
  obtain ⟨_, _, rfl⟩ := (selected_of_selectUnits hsel).frame
  exact runUnitsThen_singleton_wrote (m := []) (rest := retire px) ⟨rfl, rfl, rfl⟩ (Nat.add_le_add_left hlen 14)
    fun _ => ⟨rfl, rfl⟩

/-! ### What each placement makes the strategy select -/

/-- The published mix sends the placed pixel to its bucket: 129 is 1 modulo 64 (R181). -/
theorem publishedHash_pixelOfBucket (b : Bucket) : publishedHash (pixelOfBucket b) = b := by
  have hb := b.isLt
  apply BitVec.eq_of_toNat_eq
  simp only [publishedHash, pixelOfBucket, BitVec.toNat_ofNat, BitVec.toNat_mul, BitVec.toNat_setWidth]
  omega

theorem cacheHit_of_cacheWrite {s : State} {px : Pixel} {b : Bucket} (hb : hashOf s.cfg.hash px = b) :
    cacheHit (cacheWrite b px s) px = true := by
  simp [cacheHit, cacheRead, hb]

theorem cacheSelect_of_hit {s : State} {px : Pixel} (h : cacheHit s px = true) :
    cacheSelect px s = (s, [.index (hashOf s.cfg.hash px)]) :=
  if_pos h

theorem runSelect_of_last {s : State} {px : Pixel} (hpx : px = s.prev) :
    runSelect px true s = (bumpRun s, [.run (s.run + 1#6)]) := by
  simp [runSelect, hpx, flushUnits]

/-- A delta of one byte's signed range is recovered from the pixel it moved (R8). -/
theorem wrapDelta_add {d : Int} (y : Byte) (hlo : -128 ≤ d) (hhi : d ≤ 127) : wrapDelta (y + BitVec.ofInt 8 d) y = d := by
  rw [wrapDelta, BitVec.add_comm, BitVec.add_sub_cancel, BitVec.toInt_ofInt, Int.bmod_eq_of_le] <;> omega

theorem diffFits_eq_wf (d : Deltas) : diffFits d = (Instr.diff d.dr d.dg d.db).wf := by
  simp only [diffFits, inRange, Instr.wf, Bool.and_assoc]

theorem lumaFits_eq_wf (d : Deltas) : lumaFits d = (Instr.luma d.dg d.drg d.dbg).wf := by
  simp only [lumaFits, inRange, Instr.wf, Bool.and_assoc, Bool.and_left_comm]

/-- DELTA on the previous pixel moved by three deltas: DIFF comes before LUMA (R160). -/
theorem deltaUnit_shiftPixel {dr dg db : Int} (prev : Pixel) (hr : -128 ≤ dr ∧ dr ≤ 127) (hg : -128 ≤ dg ∧ dg ≤ 127)
    (hb : -128 ≤ db ∧ db ≤ 127) :
    deltaUnit (shiftPixel prev dr dg db) prev =
      if (Instr.diff dr dg db).wf then .diff dr dg db
      else if (Instr.luma dg (dr - dg) (db - dg)).wf then .luma dg (dr - dg) (db - dg)
      else .rgb (shiftPixel prev dr dg db).r (shiftPixel prev dr dg db).g (shiftPixel prev dr dg db).b := by
  have hd : deltasOf (shiftPixel prev dr dg db) prev = ⟨dr, dg, db, dr - dg, db - dg⟩ := by
    simp only [deltasOf, shiftPixel, wrapDelta_add _ hr.1 hr.2, wrapDelta_add _ hg.1 hg.2, wrapDelta_add _ hb.1 hb.2]
  have ha : alphaChanged (shiftPixel prev dr dg db) prev = false := by simp [alphaChanged, shiftPixel]
  simp only [deltaUnit, ha, hd, diffFits_eq_wf, lumaFits_eq_wf, Bool.false_eq_true, if_false]

theorem deltaUnit_of_diff {dr dg db : Int} (prev : Pixel) (hwf : (Instr.diff dr dg db).wf = true) :
    deltaUnit (shiftPixel prev dr dg db) prev = .diff dr dg db := by
  have h := hwf
  simp only [Instr.wf, Bool.and_eq_true, decide_eq_true_eq] at h
  rw [deltaUnit_shiftPixel prev (by omega) (by omega) (by omega), if_pos hwf]

/-- A LUMA with a delta outside [-2, 1] is selected for what it names (R163). -/
theorem deltaUnit_of_luma {dg drg dbg : Int} (prev : Pixel) (hwf : (Instr.luma dg drg dbg).wf = true)
    (hdiff : ¬ (Instr.diff (dg + drg) dg (dg + dbg)).wf = true) :
    deltaUnit (shiftPixel prev (dg + drg) dg (dg + dbg)) prev = .luma dg drg dbg := by
  have h := hwf
  simp only [Instr.wf, Bool.and_eq_true, decide_eq_true_eq] at h
  rw [deltaUnit_shiftPixel prev (by omega) (by omega) (by omega), if_neg hdiff,
    show dg + drg - dg = drg by omega, show dg + dbg - dg = dbg by omega, if_pos hwf]

/-- A red channel half the circle away fits neither DIFF nor LUMA (R164). -/
theorem deltaUnit_of_far_red (r g b a : Byte) :
    deltaUnit ⟨r, g, b, a⟩ ⟨r + 128#8, g, b, a⟩ = .rgb r g b := by
  have hr : wrapDelta r (r + 128#8) = -128 := by
    rw [wrapDelta, show r - (r + 128#8) = 128#8 by bv_omega]
    rfl
  have h0 : ∀ x : Byte, wrapDelta x x = 0 := fun x => by simp [wrapDelta]
  simp [deltaUnit, alphaChanged, deltasOf, hr, h0, diffFits, lumaFits, inRange]

theorem deltaUnit_of_alpha {px prev : Pixel} (h : px.a ≠ prev.a) : deltaUnit px prev = .rgba px.r px.g px.b px.a := by
  simp [deltaUnit, alphaChanged, h]

theorem selectUnits_of_deltaUnit {px : Pixel} {u : State} {i : Instr} (hsel : u.sel = selDelta)
    (h : deltaUnit px u.prev = i) : selectUnits px u = some (u, [i]) := by
  rw [selectUnits_of_selDelta px hsel, h]

theorem selectUnits_placeUnit_index (b : Bucket) (s : State) :
    selectUnits (pixelOfBucket b) (placeUnit (.index b) s) = some (placeUnit (.index b) s, [.index b]) := by
  have hhash : hashOf (placeUnit (.index b) s).cfg.hash (pixelOfBucket b) = b := publishedHash_pixelOfBucket b
  have hhit : cacheHit (placeUnit (.index b) s) (pixelOfBucket b) = true := cacheHit_of_cacheWrite hhash
  rw [selectUnits_of_selCache _ rfl, cacheSelect_of_hit hhit, hhash]

/-- The placed pixel is the image's last, so the run is flushed (R150). -/
theorem selectUnits_placeUnit_run (n : BitVec 6) (s : State) :
    selectUnits s.prev (placeUnit (.run n) s) = some (bumpRun (placeUnit (.run n) s), [.run n]) := by
  have hlast : lastPixel (placeUnit (.run n) s) = true := by simp [lastPixel, placeUnit, placePixel]
  have hn : (placeUnit (.run n) s).run + 1#6 = n := BitVec.sub_add_cancel n 1#6
  rw [selectUnits_of_selRun _ rfl, hlast, runSelect_of_last (s := placeUnit (.run n) s) (px := s.prev) rfl, hn]

/-! ### The step after a placement -/

theorem step_wrote_diff {dr dg db : Int} (s : State) (hwf : (Instr.diff dr dg db).wf = true) :
    ∃ t, step (placePixel selDelta (shiftPixel s.prev dr dg db) s) = .next t ∧
      Wrote (placePixel selDelta (shiftPixel s.prev dr dg db) s) t (encode defaultConfig false (.diff dr dg db)) :=
  PlacedPixel.step_wrote (s := s) ⟨_, _, _, rfl⟩ (selectUnits_of_deltaUnit rfl (deltaUnit_of_diff s.prev hwf))
    (by simp [unitLength])

/-- The step after a placement writes the unit placed; a LUMA only where one of its deltas needs it (R163). -/
theorem step_placeUnit_wrote {i : Instr} (s : State) (hwf : i.wf = true)
    (hluma : ∀ dg drg dbg, i = .luma dg drg dbg → ¬ (Instr.diff (dg + drg) dg (dg + dbg)).wf = true) :
    ∃ t, step (placeUnit i s) = .next t ∧ Wrote (placeUnit i s) t (encode defaultConfig false i) := by
  cases i with
  | index b =>
    exact PlacedPixel.step_wrote (s := s) ⟨_, _, _, rfl⟩ (selectUnits_placeUnit_index b s) (by simp [unitLength])
  | diff dr dg db => exact step_wrote_diff s hwf
  | luma dg drg dbg =>
    have hunit := deltaUnit_of_luma s.prev hwf (hluma dg drg dbg rfl)
    exact PlacedPixel.step_wrote (s := s) ⟨_, _, _, rfl⟩ (selectUnits_of_deltaUnit rfl hunit) (by simp [unitLength])
  | run n =>
    exact PlacedPixel.step_wrote (s := s) ⟨_, _, _, rfl⟩ (selectUnits_placeUnit_run n s) (by simp [unitLength])
  | rgb r g b =>
    have hunit := deltaUnit_of_far_red r g b s.prev.a
    exact PlacedPixel.step_wrote (s := s) ⟨_, _, _, rfl⟩ (selectUnits_of_deltaUnit rfl hunit) (by simp [unitLength])
  | rgba r g b a =>
    have hne : a ≠ a + 1#8 := by bv_omega
    have hunit : deltaUnit ⟨r, g, b, a⟩ (placeUnit (.rgba r g b a) s).prev = .rgba r g b a := deltaUnit_of_alpha hne
    exact PlacedPixel.step_wrote (s := s) ⟨_, _, _, rfl⟩ (selectUnits_of_deltaUnit rfl hunit) (by simp [unitLength])
  | header width height channels colorspace =>
    obtain ⟨t, ht, hw, -⟩ := Sequencer.headerStep (placeUnit (.header width height channels colorspace) s) [] []
      (Or.inr ⟨rfl, rfl⟩) ⟨rfl, rfl, rfl⟩ rfl (show 0 + 14 ≤ 27 by decide)
    exact ⟨t, ht, hw⟩
  | endMarker =>
    obtain ⟨t, ht, hw, -⟩ := (Sequencer.footerStep (placeUnit .endMarker s) [] [] (Or.inr ⟨rfl, rfl⟩)
      ⟨rfl, rfl, rfl⟩ rfl).1 (show 14 + 8 ≤ 27 by decide)
    exact ⟨t, ht, hw⟩

theorem withFetchWord_of_decoded {s : State} {nbits w : Nat} {i : Instr} (h : decodeTableWord nbits w = some i) :
    s.withFetchWord nbits w = placeUnit i s := by
  simp [State.withFetchWord, placeTableWord, h]

/-- Settles O17, unit by unit; a LUMA of three small deltas is placed as the pixel of their DIFF. -/
theorem stepRunsDecodedWord : Obligations.StepRunsDecodedWord := by
  intro s nbits w i hdecode hwf
  simp only [withFetchWord_of_decoded hdecode]
  refine ⟨step_placeUnit_wrote s hwf, ?_⟩
  rintro dg drg dbg rfl hdiff
  exact step_wrote_diff s hdiff

end Sys2Proof.Machine

/-! PROOFS. Validation and sizes (spec/41_validation.md): the predicate `Invalid`, the sizes of an accepted descriptor, and
the output capacity of the rows of R126 that fit. The capacity proof keeps one account, `bytesDue` against
`classifiedRoom`: a pixel adds at most CHANNELS + 1 to the first and exactly that to the second. -/
namespace Sys2Proof.Machine

/-! ### The predicate `Invalid` -/

theorem guardRejects_iff (s : State) :
    guardRejects s = true ↔ s.cfg.maxPixels.toNat / s.width.toNat ≤ s.height.toNat := by
  simp [guardRejects]

/-- The tests of `Invalid` in naturals, the guard evaluated whatever the width. -/
theorem invalid_iff (s : State) :
    invalid s = true ↔
      (s.present.getLsbD 0 = false ∨ s.present.getLsbD 1 = false ∨ s.present.getLsbD 2 = false ∨
       s.width.toNat = 0 ∨ s.height.toNat = 0 ∨ (s.channels.toNat ≠ 3 ∧ s.channels.toNat ≠ 4) ∨
       1 < s.colorspace.toNat ∨ s.cfg.maxPixels.toNat / s.width.toNat ≤ s.height.toNat) := by
  simp only [invalid, Bool.or_eq_true, Bool.and_eq_true, Bool.not_eq_true', decide_eq_true_eq, guardRejects_iff, or_assoc,
    ne_eq, ← BitVec.toNat_inj, BitVec.toNat_ofNat, Nat.reducePow, Nat.reduceMod]

/-- Settles O27: where the width is zero the guard adds nothing, since the width's own test already rejects. -/
theorem invalidIsTheEightConditions : Obligations.InvalidIsTheEightConditions := by
  intro s
  rw [invalid_iff]
  by_cases hw : s.width.toNat = 0
  · simp only [hw, true_or, or_true]
  · simp only [hw, ne_eq, not_false_eq_true, true_and]

/-! ### Accepted sizes -/

/-- The guard leaves room for one more row of pixels below MAX_PIXELS (R122, R123). -/
theorem pixelCount_add_width_le {s : State} (h : invalid s = false) :
    pixelCount s + s.width.toNat ≤ s.cfg.maxPixels.toNat := by
  obtain ⟨hw, -, -, hguard⟩ := valid_descriptor h
  calc pixelCount s + s.width.toNat = (s.height.toNat + 1) * s.width.toNat := by
        rw [pixelCount, Nat.succ_mul, Nat.mul_comm]
    _ ≤ s.cfg.maxPixels.toNat := (Nat.le_div_iff_mul_le hw).mp hguard

/-- Settles O29, from the limit that `Config.wf` sets to MAX_PIXELS. -/
theorem acceptedSizesDoNotOverflow : Obligations.AcceptedSizesDoNotOverflow := by
  intro s hcfg h
  obtain ⟨-, hn⟩ := pixelCount_bounds hcfg h
  refine ⟨(valid_descriptor h).1, pixelCount_add_width_le h, ?_⟩
  rcases channels_toNat h with hc | hc <;> rw [hc] <;> omega

theorem three_le_channels {s : State} (h : invalid s = false) : 3 ≤ s.channels.toNat := by
  rcases channels_toNat h with hc | hc <;> omega

/-! ### The account of a pixel -/

/-- The byte that flushing a run of `n` will cost (R126). -/
def pendingByte (n : BitVec 6) : Nat := if n = 0#6 then 0 else 1

theorem pendingByte_le (n : BitVec 6) : pendingByte n ≤ 1 := by
  unfold pendingByte
  split <;> omega

/-- The bytes written, with one more for a pending run. -/
def bytesDue (s : State) : Nat := s.p.toNat + pendingByte s.run

/-- The header's bytes and CHANNELS + 1 for each classified pixel. -/
def classifiedRoom (s : State) : Nat := 14 + (s.channels.toNat + 1) * (s.pos.toNat / s.channels.toNat)

theorem Capacity.bytesDue_le {s : State} (h : Capacity s) (hp : s.phase = .pixels) (hrow : fittingRow s = true) :
    bytesDue s ≤ classifiedRoom s :=
  h.inPixels hp hrow

/-- On a fitting row a literal takes CHANNELS + 1 bytes, but for DELTA with three channels (R126, R154). -/
theorem unitLength_literal_le {s : State} (hc : s.channels = 3#8 ∨ s.channels = 4#8) (hrow : fittingRow s = true)
    (hsel : s.channels = 4#8 ∨ s.sel ≠ selDelta) (px : Pixel) :
    unitLength (shortLiteral s) (.rgba px.r px.g px.b px.a) ≤ s.channels.toNat + 1 := by
  rcases hc with hc | hc
  · have hne : s.sel ≠ selDelta := hsel.resolve_left (by simp [hc])
    have hshort : s.sel = selRun ∧ s.cfg.runLit3 = .three := by simpa [fittingRow, hc, hne] using hrow
    simp [shortLiteral, unitLength, hc, hshort]
  · simp [shortLiteral, unitLength, hc]

/-- DELTA writes a literal only where the alpha changes, and at most four bytes elsewhere (R160). -/
theorem deltaUnit_literal_or_short (shortLit : Bool) (px prev : Pixel) :
    (px.a ≠ prev.a ∧ deltaUnit px prev = .rgba px.r px.g px.b px.a) ∨ unitLength shortLit (deltaUnit px prev) ≤ 4 := by
  by_cases ha : px.a = prev.a
  · have hsame : alphaChanged px prev = false := by simp [alphaChanged, ha]
    simp only [deltaUnit, hsame, Bool.false_eq_true, if_false]
    right
    split
    · exact (by decide : 1 ≤ 4)
    · split
      · exact (by decide : 2 ≤ 4)
      · exact Nat.le_refl 4
  · exact Or.inl ⟨ha, deltaUnit_of_alpha ha⟩

/-- What a pixel's units cost: their bytes, or the byte of the run that a pixel without a unit leaves pending. -/
def unitsCost (shortLit : Bool) (units : List Instr) : Nat :=
  unitsLength shortLit units + if units = [] then 1 else 0

theorem unitsCost_nil (shortLit : Bool) : unitsCost shortLit [] = 1 := rfl

theorem unitsCost_cons (shortLit : Bool) (i : Instr) (is : List Instr) :
    unitsCost shortLit (i :: is) = unitLength shortLit i + unitsLength shortLit is := by
  simp [unitsCost, unitsLength_cons]

theorem unitsCost_singleton (shortLit : Bool) (i : Instr) : unitsCost shortLit [i] = unitLength shortLit i :=
  unitsCost_cons shortLit i []

/-- RUN costs a byte or a literal, and the byte of the run that was pending (R150, R151). -/
theorem unitsCost_runSelect_le {shortLit : Bool} {px : Pixel} {n : Nat} (h1 : 1 ≤ n)
    (hliteral : unitLength shortLit (.rgba px.r px.g px.b px.a) ≤ n) (last : Bool) (s : State) :
    unitsCost shortLit (runSelect px last s).2 ≤ n + pendingByte s.run := by
  have hrun : ∀ m, unitLength shortLit (.run m) = 1 := fun _ => rfl
  rcases runSelect_cases px last s with ⟨-, -, -, h⟩ | ⟨-, -, h⟩ | ⟨-, -, h⟩ | ⟨-, hne, h⟩ <;> rw [h]
  · rw [unitsCost_nil]
    omega
  · rw [unitsCost_singleton, hrun]
    omega
  · rw [unitsCost_singleton]
    omega
  · rw [unitsCost_cons, hrun, unitsLength_singleton, pendingByte, if_neg hne]
    omega

/-- On a fitting row a pixel costs CHANNELS + 1 bytes and the byte of the run pending before it (R126). -/
theorem Inv.unitsCost_le {px : Pixel} {s v : State} {units : List Instr} (h : Inv s) (hp : s.phase = .pixels)
    (hrow : fittingRow s = true) (hpx : fetchPixel s s.pos = some px) (hsel : selectUnits px s = some (v, units)) :
    unitsCost (shortLiteral s) units ≤ s.channels.toNat + 1 + pendingByte s.run := by
  obtain ⟨-, -, hc, -⟩ := valid_descriptor (h.invalid_eq_false hp)
  have h3 := three_le_channels (h.invalid_eq_false hp)
  rcases selectUnits_cases hsel with ⟨hs, hrun⟩ | ⟨-, -, rfl⟩ | ⟨hs, hcache⟩
  · have hliteral := unitLength_literal_le hc hrow (Or.inr (by rw [hs]; decide)) px
    rw [show units = (runSelect px (lastPixel s) s).2 by rw [hrun]]
    exact unitsCost_runSelect_le (by omega) hliteral _ s
  · rw [unitsCost_singleton]
    rcases deltaUnit_literal_or_short (shortLiteral s) px s.prev with ⟨ha, hd⟩ | hshort
    · have h4 : s.channels = 4#8 := hc.resolve_left fun hc =>
        ha ((fetchPixel_alpha hpx hc).trans (h.alphaFixed (by simp [hp, validated]) hc).symm)
      rw [hd]
      exact Nat.le_add_right_of_le (unitLength_literal_le hc hrow (Or.inl h4) px)
    · omega
  · have hliteral := unitLength_literal_le hc hrow (Or.inr (by rw [hs]; decide)) px
    rw [show units = (cacheSelect px s).2 by rw [hcache]]
    rcases cacheSelect_cases px s with ⟨-, hr⟩ | ⟨-, hr⟩ <;> rw [hr, unitsCost_singleton]
    · exact Nat.le_add_right_of_le (Nat.le_add_left 1 _)
    · exact Nat.le_add_right_of_le hliteral

/-- A pixel that has written a unit leaves no run pending. -/
theorem Inv.run_eq_zero_of_units {px : Pixel} {s v u : State} {units : List Instr} (h : Inv s) (hp : s.phase = .pixels)
    (hsel : selectUnits px s = some (v, units)) (he : Emitted units v u) (hf : u.faultOutOverflow = false)
    (hne : units ≠ []) : u.run = 0#6 := by
  have hother := h.run_eq_zero hp (selected_of_selectUnits hsel) he
  by_cases hs : s.sel = selRun
  · have hrun := Option.some.inj ((selectUnits_of_selRun px hs).symm.trans hsel)
    rcases runSelect_cases px (lastPixel s) s with ⟨-, -, -, hr⟩ | ⟨-, -, hr⟩ | ⟨-, h0, hr⟩ | ⟨-, -, hr⟩ <;>
      cases hr.symm.trans hrun
    · exact absurd rfl hne
    · exact he.cleared hf ⟨_, List.mem_cons_self⟩
    · exact (he.run_eq (by simp [flushes])).trans h0
    · exact he.cleared hf ⟨_, List.mem_cons_self⟩
  · exact hother hs

theorem Selected.shortLiteral_eq {px : Pixel} {s v : State} {units : List Instr} (h : Selected px s v units) :
    shortLiteral v = shortLiteral s := by
  obtain ⟨_, _, rfl⟩ := h.frame
  rfl

/-- On a fitting row a pixel adds at most CHANNELS + 1 to the bytes due. -/
theorem Inv.bytesDue_pixel_le {px : Pixel} {s v u : State} {units : List Instr} (h : Inv s) (hp : s.phase = .pixels)
    (hrow : fittingRow s = true) (hpx : fetchPixel s s.pos = some px) (hsel : selectUnits px s = some (v, units))
    (he : Emitted units v u) (hf : u.faultOutOverflow = false) :
    bytesDue u ≤ bytesDue s + (s.channels.toNat + 1) := by
  have hcost := h.unitsCost_le hp hrow hpx hsel
  have hlen := he.length hf
  have hs := selected_of_selectUnits hsel
  rw [hs.p_eq, hs.shortLiteral_eq] at hlen
  have hpending : pendingByte u.run ≤ if units = [] then 1 else 0 := by
    split
    · exact pendingByte_le _
    · rename_i hne
      simp [h.run_eq_zero_of_units hp hsel he hf hne, pendingByte]
  unfold unitsCost at hcost
  unfold bytesDue
  omega

/-! ### The room of a pixel -/

/-- A pixel that is left still has its CHANNELS + 1 bytes, and the end marker its eight (R124). -/
theorem Inv.classifiedRoom_add_le {s : State} (h : Inv s) (hp : s.phase = .pixels) (hlt : s.pos.toNat < s.pxLen.toNat) :
    classifiedRoom s + (s.channels.toNat + 1) + 8 ≤ s.bound.toNat := by
  obtain ⟨hpx, hbound⟩ := h.sizes (by simp [hp, hasOut])
  have hk : s.pos.toNat / s.channels.toNat < pixelCount s :=
    Nat.div_lt_of_lt_mul (by rwa [Nat.mul_comm, ← hpx])
  have hrows : (s.channels.toNat + 1) * (s.pos.toNat / s.channels.toNat) + (s.channels.toNat + 1) ≤
      pixelCount s * (s.channels.toNat + 1) :=
    calc (s.channels.toNat + 1) * (s.pos.toNat / s.channels.toNat) + (s.channels.toNat + 1)
        = (s.channels.toNat + 1) * (s.pos.toNat / s.channels.toNat + 1) := (Nat.mul_succ _ _).symm
      _ ≤ (s.channels.toNat + 1) * pixelCount s := Nat.mul_le_mul_left _ hk
      _ = pixelCount s * (s.channels.toNat + 1) := Nat.mul_comm _ _
  unfold classifiedRoom
  omega

/-- After the last pixel exactly the end marker's eight bytes are left over (R124). -/
theorem Inv.classifiedRoom_end {s : State} (h : Inv s) (hp : s.phase = .pixels) (hend : s.pos = s.pxLen) :
    classifiedRoom s + 8 = s.bound.toNat := by
  obtain ⟨hpx, hbound⟩ := h.sizes (by simp [hp, hasOut])
  have hc := three_le_channels (h.invalid_eq_false hp)
  rw [classifiedRoom, hend, hpx, Nat.mul_div_cancel _ (by omega), hbound, Nat.mul_comm]
  omega

/-- Retiring a pixel adds its CHANNELS + 1 bytes (R107). -/
theorem classifiedRoom_retire {px : Pixel} {s u : State} (h : Inv s) (hp : s.phase = .pixels)
    (hlt : s.pos.toNat < s.pxLen.toNat) (hpos : u.pos = s.pos) (hch : u.channels = s.channels) :
    classifiedRoom (retire px u) = classifiedRoom s + (s.channels.toNat + 1) := by
  have hleft := h.pixel_left hp hlt
  have hb := s.pxLen.isLt
  have hc := three_le_channels (h.invalid_eq_false hp)
  have hnext : (s.pos + s.channels.setWidth 32).toNat = s.pos.toNat + s.channels.toNat := by
    rw [BitVec.toNat_add, BitVec.toNat_setWidth]
    omega
  rw [classifiedRoom, classifiedRoom, retire_pos, retire_channels, hpos, hch, hnext,
    Nat.add_div_right _ (by omega), Nat.mul_succ]
  omega

/-! ### Every step keeps the capacity -/

theorem SameCommand.fittingRow_eq {s t : State} (h : SameCommand s t) : fittingRow t = fittingRow s := by
  obtain ⟨hsel, -, -, -, hch, -, -, -, -, -, hcfg, -⟩ := h
  simp only [fittingRow, hsel, hch, hcfg]

theorem capacity_of_not_fittingRow {s : State} (h : fittingRow s = false) : Capacity s := by
  constructor <;> simp [h]

theorem capacity_of_no_overflow {s : State} (hf : s.faultOutOverflow = false) (hp : s.phase ≠ .pixels)
    (hp' : s.phase ≠ .footer) : Capacity s :=
  ⟨fun _ => hf, fun h => absurd h hp, fun h => absurd h hp'⟩

/-- The header's fourteen bytes are all that is due before the first pixel (R140). -/
theorem capacity_header {s u : State} (h : Inv s) (hu : Unmarked s) (hp : s.phase = .header)
    (he : Emitted [headerUnit s] s u) : Capacity (enterPhase .pixels u) := by
  have hroom := (h.header hu hp he).1
  obtain ⟨hp0, -, hrun, -⟩ := h.fresh (by simp [hp, beforeBytes])
  have hlen : u.p.toNat = 14 := by simpa [hp0, headerUnit, unitLength] using he.length hroom
  have h0 : u.run = 0#6 := (he.run_eq (not_flushes_header s)).trans hrun
  exact ⟨fun _ => hroom, fun _ _ => by simp [hlen, h0], fun hb => by cases hb⟩

/-- The end marker fits behind the bytes due for all pixels. -/
theorem Capacity.endTest {s : State} (h : Capacity s) (hi : Inv s) (hp : s.phase = .pixels) (hend : s.pos = s.pxLen) :
    Capacity (enterPhase .footer s) := by
  refine ⟨h.noOverflow, (nomatch ·), fun _ hrow => ?_⟩
  have hroom := hi.classifiedRoom_end hp hend
  have hdue := h.bytesDue_le hp hrow
  unfold bytesDue at hdue
  simp only [enterPhase_p, enterPhase_bound]
  omega

/-- The units of a pixel fit: were a byte of theirs missing at BOUND, the pixel would cost more than its room. -/
theorem Capacity.no_overflow_of_pixel {px : Pixel} {s v u : State} {units : List Instr} (h : Capacity s) (hi : Inv s)
    (hp : s.phase = .pixels) (hlt : s.pos.toNat < s.pxLen.toNat) (hrow : fittingRow s = true)
    (hpx : fetchPixel s s.pos = some px) (hsel : selectUnits px s = some (v, units)) (he : Emitted units v u) :
    u.faultOutOverflow = false := by
  rw [← Bool.not_eq_true]
  intro hf
  have hs := selected_of_selectUnits hsel
  have hfull := he.full hf
  rw [hs.p_eq, hs.shortLiteral_eq] at hfull
  have hcost := hi.unitsCost_le hp hrow hpx hsel
  have hdue := h.bytesDue_le hp hrow
  have hroom := hi.classifiedRoom_add_le hp hlt
  have hno := h.noOverflow hrow
  obtain ⟨_, _, rfl⟩ := hs.frame
  obtain ⟨hbound, hmissing⟩ := hfull.resolve_left (by simp [hno])
  unfold unitsCost at hcost
  unfold bytesDue at hdue
  simp only at hbound
  omega

/-- A retired pixel stays within the room of the classified pixels (R126). -/
theorem Capacity.retire {px : Pixel} {s v u : State} {units : List Instr} (h : Capacity s) (hi : Inv s)
    (hp : s.phase = .pixels) (hlt : s.pos.toNat < s.pxLen.toNat) (hrow : fittingRow s = true)
    (hpx : fetchPixel s s.pos = some px) (hsel : selectUnits px s = some (v, units)) (he : Emitted units v u)
    (hf : u.faultOutOverflow = false) : Capacity (retire px u) := by
  have hdue : bytesDue u ≤ classifiedRoom s + (s.channels.toNat + 1) :=
    Nat.le_trans (hi.bytesDue_pixel_le hp hrow hpx hsel he hf) (Nat.add_le_add_right (h.bytesDue_le hp hrow) _)
  obtain ⟨_, _, rfl⟩ := (selected_of_selectUnits hsel).frame
  obtain ⟨_, _, _, _, rfl⟩ := he.frame
  rw [← classifiedRoom_retire (px := px) hi hp hlt rfl rfl] at hdue
  exact ⟨fun _ => hf, fun _ _ => hdue, fun hb => by simp [hp] at hb⟩

/-- The end marker fits (R126). -/
theorem Capacity.no_overflow_of_footer {s u : State} (h : Capacity s) (hp : s.phase = .footer) (hrow : fittingRow s = true)
    (he : Emitted [.endMarker] s u) : u.faultOutOverflow = false := by
  rw [← Bool.not_eq_true]
  intro hf
  have hfits := h.inFooter hp hrow
  obtain ⟨hbound, hmissing⟩ := (he.full hf).resolve_left (by simp [h.noOverflow hrow])
  simp only [unitsLength_singleton, unitLength] at hmissing
  omega

theorem Capacity.advance {s t : State} (hi : Inv s) (h : Capacity s) (hstep : advance s = .next t) : Capacity t := by
  cases hrow : fittingRow s with
  | false => exact capacity_of_not_fittingRow ((writersOf_advance hstep).command.fittingRow_eq.trans hrow)
  | true =>
    have hno := h.noOverflow hrow
    obtain ⟨hu, ⟨-, rfl⟩ | ⟨-, rfl⟩ | ⟨-, rfl⟩ | ⟨hp, hrun⟩ | ⟨hp, hend, rfl⟩ | ⟨hp, hlt, hpixel⟩ | ⟨hp, hrun⟩⟩ :=
      advance_cases s t hstep
    · exact h
    · rcases validateStep_cases s with ⟨-, hv⟩ | ⟨-, hv⟩ <;> rw [hv] <;>
        exact capacity_of_no_overflow hno (by simp) (by simp)
    · rcases allocStep_cases s with ⟨-, ha⟩ | ⟨-, ha⟩ <;> rw [ha] <;>
        exact capacity_of_no_overflow hno (by simp) (by simp)
    · obtain ⟨u, he, ⟨hf, -⟩ | ⟨-, rfl⟩⟩ := emitted_of_runUnitsThen hu.1 hrun
      · exact absurd ((hi.header hu hp he).1.symm.trans hf) (by decide)
      · exact capacity_header hi hu hp he
    · exact h.endTest hi hp hend
    · obtain ⟨-, rfl⟩ | ⟨px, v, units, hpx, hsel, hrun⟩ := pixelStep_selectUnits hpixel
      · exact ⟨h.noOverflow, h.inPixels, h.inFooter⟩
      · obtain ⟨u, he, ht⟩ := emitted_of_runUnitsThen ((selected_of_selectUnits hsel).faulted_eq.trans hu.1) hrun
        have hf := h.no_overflow_of_pixel hi hp hlt hrow hpx hsel he
        obtain ⟨hov, -⟩ | ⟨-, rfl⟩ := ht
        · exact absurd (hf.symm.trans hov) (by decide)
        · exact h.retire hi hp hlt hrow hpx hsel he hf
    · obtain ⟨u, he, ⟨hov, -⟩ | ⟨hf, rfl⟩⟩ := emitted_of_runUnitsThen hu.1 hrun
      · exact absurd ((h.no_overflow_of_footer hp hrow he).symm.trans hov) (by decide)
      · exact capacity_of_no_overflow hf (by simp) (by simp)

/-- An accepted START begins before any byte and without a mark (R38, R100). -/
theorem capacity_start {s : State} (cmd : StartCmd) (hacc : accepts s = true) :
    Capacity (seedCall (latchCommand cmd s)) :=
  capacity_of_no_overflow ((accepts_iff s).mp hacc).2.flags.1 (by simp) (by simp)

/-- Settles O48: a pixel costs at most the CHANNELS + 1 bytes that BOUND holds for it, and the two records have theirs. -/
theorem fittingRowsNeverOverflow : Obligations.FittingRowsNeverOverflow := by
  intro s t hi h hstep
  rcases step_cases s t hstep with ⟨cmd, moves, -, rfl⟩ | ⟨moves, -, hadv⟩
  · rcases startCommand_cases cmd { s with host := moves } with ⟨hacc, -, hc⟩ | ⟨-, hc⟩ <;> rw [hc]
    · exact capacity_start cmd hacc
    · exact ⟨h.noOverflow, h.inPixels, h.inFooter⟩
  · exact Capacity.advance (s := { s with host := moves }) (hi.setHost moves) ⟨h.noOverflow, h.inPixels, h.inFooter⟩ hadv

end Sys2Proof.Machine

/-! PROOFS. The statements about the two records that frame a stream (spec/42_framing.md). What a unit writes is said
once, for every unit; each record then only needs its bytes spelled out. -/
namespace Sys2Proof.Machine

/-! ### What any unit writes -/

/-- A unit that fits writes OUT and P, and RUN its counter; no other register changes (R53, R152). -/
theorem unitAfter_stored_frame (i : Instr) (s : State) (m : Memory) (bytes : List Byte) :
    unitAfter i (stored s m bytes) =
      unitAfter i { s with out := (unitAfter i (stored s m bytes)).out, p := (unitAfter i (stored s m bytes)).p } := by
  cases i <;> rfl

theorem wrote_unitAfter {i : Instr} {s t : State} {bytes : List Byte} (h : Wrote s t bytes) :
    Wrote s (unitAfter i t) bytes := by
  cases i <;> exact h

/-- A unit's meaning is that its encoding is written, or as much of it as fits (R54, R203). -/
theorem unitMeaning_encode (i : Instr) {s : State} {m : Memory} (hr : Ready s m) :
    UnitMeaning i s (encode s.cfg (shortLiteral s) i) (unitAfter i) := by
  have hlen := encode_length s.cfg (shortLiteral s) i
  refine ⟨fun hfit => ?_, fun hov => ?_⟩
  · exact ⟨_, exec_of_fits i s m hr (hlen ▸ hfit), wrote_unitAfter (wrote_stored hr.2.2 hfit),
      unitAfter_stored_frame i s m _⟩
  · exact ⟨_, exec_of_overflow i s m hr (hlen ▸ hov), wrote_overflowed hr.2.2 hov, rfl⟩

/-! ### The two records -/

/-- The byte of a word at bit `k` is the word divided by 2^k, truncated to a byte (R56). -/
theorem byteOf_div_two_pow (w : Word) (k : Nat) : byteOf (w.toNat / 2 ^ k) = w.extractLsb' k 8 := by
  have hcast : (w.toNat / 2 ^ k : Int) = (w.toNat / 2 ^ k : Nat) := by norm_cast
  rw [byteOf, hcast, BitVec.ofInt_natCast, ← Nat.shiftRight_eq_div_pow]
  rfl

/-- A word in OUT, its most significant byte first (R56). -/
theorem bigEndian_eq_byteOf (w : Word) :
    bigEndian w = [byteOf (w.toNat / 2 ^ 24), byteOf (w.toNat / 2 ^ 16), byteOf (w.toNat / 2 ^ 8), byteOf w.toNat] := by
  have hlow : byteOf w.toNat = w.extractLsb' 0 8 := by simpa using byteOf_div_two_pow w 0
  rw [byteOf_div_two_pow w 24, byteOf_div_two_pow w 16, byteOf_div_two_pow w 8, hlow, bigEndian]

/-- Settles O7: HEADER's encoding is the magic, two big-endian words, and two bytes. -/
theorem headerMeaning : Obligations.HeaderMeaning := by
  intro w h c cs s m hr
  have hm := unitMeaning_encode (.header w h c cs) hr
  rw [encode, headerBytes, bigEndian_eq_byteOf, bigEndian_eq_byteOf] at hm
  exact hm

/-- Settles O8: END's encoding is the end marker. -/
theorem endMeaning : Obligations.EndMeaning := fun _ _ hr => unitMeaning_encode .endMarker hr

end Sys2Proof.Machine

/-! PROOFS. The statements about the RUN strategy and the literal (spec/43_run.md). What a unit writes is
`unitMeaning_encode`, so each unit only needs its bytes spelled out. A RUN step runs what `runSelect` answers: nothing,
one unit, or a flush and a literal, for which `runUnitsThen_pair_of_fits` says what two units write. -/
namespace Sys2Proof.Machine

/-! ### The bytes of a run and of a literal -/

/-- A two-bit tag over a six-bit payload, as a number (R71). -/
theorem tag_append_eq_byteOf (tag : BitVec 2) (payload : BitVec 6) :
    tag ++ payload = byteOf (64 * tag.toNat + payload.toNat) := by
  have hcast : (64 * tag.toNat + payload.toNat : Int) = (64 * tag.toNat + payload.toNat : Nat) := by norm_cast
  have hlt := payload.isLt
  rw [byteOf, hcast, BitVec.ofInt_natCast]
  apply BitVec.eq_of_toNat_eq
  rw [BitVec.toNat_append, ← Nat.shiftLeft_add_eq_or_of_lt hlt, BitVec.toNat_ofNat, Nat.shiftLeft_eq]
  omega

/-- The payload of a run's byte is its length less one (R73, R152). -/
theorem tag_append_pred_eq_byteOf (tag : BitVec 2) {n : BitVec 6} (h : n ≠ 0#6) :
    tag ++ (n - 1#6) = byteOf (64 * tag.toNat + (n.toNat - 1)) := by
  have hpos : n.toNat ≠ 0 := fun h0 => h (BitVec.eq_of_toNat_eq h0)
  have hpred : ((n - 1#6).toNat : Int) = n.toNat - 1 := by
    rw [BitVec.toNat_sub, BitVec.toNat_ofNat]
    omega
  rw [tag_append_eq_byteOf, hpred]

theorem run_ne_zero_of_wf {n : BitVec 6} (h : (Instr.run n).wf = true) : n ≠ 0#6 := by
  rintro rfl
  simp [Instr.wf] at h

/-- The one case in which the literal has no alpha byte (R154). -/
theorem shortLiteral_iff (s : State) :
    shortLiteral s = true ↔ s.channels ≠ 4#8 ∧ s.sel = selRun ∧ s.cfg.runLit3 = .three := by
  simp [shortLiteral, and_assoc]

/-- The literal that a RUN step writes is RGBA's encoding (R154). -/
theorem runLiteral_eq_encode {s : State} (hsel : s.sel = selRun) (px : Pixel) :
    runLiteral s px = encode s.cfg (shortLiteral s) (.rgba px.r px.g px.b px.a) := by
  have hiff : shortLiteral s = true ↔ s.channels ≠ 4#8 ∧ s.cfg.runLit3 = .three := by
    simp only [shortLiteral_iff, hsel, true_and]
  unfold runLiteral
  split
  · rename_i hshort
    rw [hiff.mpr hshort]
    rfl
  · rename_i hfull
    rw [Bool.eq_false_iff.mpr ((not_congr hiff).mpr hfull)]
    rfl

/-! ### The two units -/

/-- Settles O4: RUN's encoding is its byte, whose payload is below the literal tags' 62. -/
theorem runMeaning : Obligations.RunMeaning := by
  intro n s m hr hwf
  rw [← tag_append_pred_eq_byteOf _ (run_ne_zero_of_wf hwf)]
  refine ⟨unitMeaning_encode (.run n) hr, fun htags => ?_⟩
  exact (Tags.not_literal htags fun _ => (payloadOf_append _ _).symm ▸ run_payload_lt hwf).symm

/-- Settles O6: the alpha byte is left out exactly where `shortLiteral` holds. -/
theorem rgbaMeaning : Obligations.RgbaMeaning := by
  intro r g b a s m hr
  have hm := unitMeaning_encode (.rgba r g b a) hr
  refine ⟨fun hfull => ?_, fun hshort => ?_⟩
  · have hno : ¬ shortLiteral s = true := by
      rw [shortLiteral_iff]
      rintro ⟨hc, hsel, hlit⟩
      rcases hfull with h4 | hother | hfour
      · exact hc h4
      · exact hother hsel
      · exact absurd (hlit.symm.trans hfour) (by decide)
    rwa [Bool.eq_false_iff.mpr hno] at hm
  · rwa [(shortLiteral_iff s).mpr hshort] at hm

/-! ### What a RUN step selects -/

/-- The equal branch below a full run and before the last pixel only counts (R150). -/
theorem runSelect_of_counted {s : State} {last : Bool} (h : ¬ (runFull (s.run + 1#6) || last) = true) :
    runSelect s.prev last s = (bumpRun s, []) :=
  (if_pos rfl).trans (congrArg (Prod.mk _) (if_neg h))

/-- The equal branch at a full run or at the last pixel flushes what it has counted (R150). -/
theorem runSelect_of_flushed {s : State} {last : Bool} (h : (runFull (s.run + 1#6) || last) = true) :
    runSelect s.prev last s = (bumpRun s, [.run (s.run + 1#6)]) :=
  (if_pos rfl).trans (congrArg (Prod.mk _) (if_pos h))

/-- The different branch with no run pending writes the literal (R151). -/
theorem runSelect_of_literal {px : Pixel} {s : State} (hne : px ≠ s.prev) (h : s.run = 0#6) (last : Bool) :
    runSelect px last s = (s, [.rgba px.r px.g px.b px.a]) := by
  rw [runSelect, if_neg hne, if_pos h, List.nil_append]

/-- The different branch flushes a pending run before the literal (R151). -/
theorem runSelect_of_pending {px : Pixel} {s : State} (hne : px ≠ s.prev) (h : s.run ≠ 0#6) (last : Bool) :
    runSelect px last s = (s, [.run s.run, .rgba px.r px.g px.b px.a]) := by
  rw [runSelect, if_neg hne, if_neg h, flushUnits, List.singleton_append]

/-- The condition for a flush, in naturals (R150). -/
theorem runFull_or_lastPixel_iff {s : State} (h : s.run.toNat ≤ 61) :
    (runFull (s.run + 1#6) || lastPixel s) = true ↔
      s.run.toNat + 1 = 62 ∨ s.pos = s.pxLen - s.channels.setWidth 32 := by
  simp only [runFull, lastPixel, Bool.or_eq_true, decide_eq_true_eq, ← BitVec.toNat_inj (x := s.run + 1#6),
    toNat_add_one h, BitVec.toNat_ofNat, Nat.reducePow, Nat.reduceMod]

/-- RUN does not look at the host's moves. -/
theorem runSelect_setHost (px : Pixel) (last : Bool) (s : State) (moves : List HostMove) :
    runSelect px last { s with host := moves } =
      ({ (runSelect px last s).1 with host := moves }, (runSelect px last s).2) := by
  unfold runSelect
  split <;> rfl

/-- A RUN step runs the units that `runSelect` answers (R106). -/
theorem step_of_runSelect {s v : State} {moves : List HostMove} {px : Pixel} {units : List Instr}
    (hsilent : Silent s moves) (hu : Unmarked s) (hp : s.phase = .pixels) (hsel : s.sel = selRun)
    (hlt : s.pos.toNat < s.pxLen.toNat) (hpx : fetchPixel s s.pos = some px)
    (hrun : runSelect px (lastPixel s) s = (v, units)) :
    step s = runUnitsThen units (retire px) { v with host := moves } := by
  have hselect : selectUnits px { s with host := moves } = some ({ v with host := moves }, units) := by
    rw [selectUnits_of_selRun (s := { s with host := moves }) px hsel]
    exact congrArg some ((runSelect_setHost px (lastPixel s) s moves).trans (by rw [hrun]))
  rw [step_of_silent s moves hsilent, advance_of_pixels (s := { s with host := moves }) hu hp hlt]
  exact pixelStep_of_selected (s := { s with host := moves }) hpx hselect

/-! ### Two units in one step -/

/-- What two units write one after the other. -/
theorem Wrote.append {s u t : State} {xs ys : List Byte} (hx : Wrote s u xs) (hy : Wrote u t ys) :
    Wrote s t (xs ++ ys) := by
  obtain ⟨hxin, hxout, hxp⟩ := hx
  obtain ⟨hyin, hyout, hyp⟩ := hy
  refine ⟨fun k hk => ?_, fun a ha => ?_, by rw [hyp, hxp, List.length_append, Nat.add_assoc]⟩
  · rw [List.length_append] at hk
    rcases Nat.lt_or_ge k xs.length with hlt | hge
    · rw [hyout _ (by omega), hxin k hlt, List.getElem_append_left hlt]
    · rw [show s.p.toNat + k = u.p.toNat + (k - xs.length) by omega, hyin _ (by omega),
        List.getElem_append_right hge]
  · rw [List.length_append] at ha
    rw [hyout a (by omega), hxout a (by omega)]

theorem Emitted.cfg_eq {units : List Instr} {s u : State} (h : Emitted units s u) : u.cfg = s.cfg := by
  obtain ⟨_, _, _, _, rfl⟩ := h.frame
  rfl

/-- After units that fit the next one may be written. -/
theorem Emitted.ready {units : List Instr} {s u : State} {m : Memory} (h : Emitted units s u) (hr : Ready s m)
    (hf : faulted u = false) : ∃ m', Ready u m' := by
  obtain ⟨-, hrefused, ho⟩ := hr
  obtain ⟨m', hm'⟩ := Option.isSome_iff_exists.mp (h.out_isSome.trans (by rw [ho]; rfl))
  obtain ⟨_, _, _, _, rfl⟩ := h.frame
  exact ⟨m', hf, hrefused, hm'⟩

/-- A step of two units that both fit: their bytes in order, then the rest of the step. -/
theorem runUnitsThen_pair_of_fits {i j : Instr} {s : State} {m : Memory} (rest : State → State) (hr : Ready s m)
    (hfit : s.p.toNat + unitLength (shortLiteral s) i + unitLength (shortLiteral s) j ≤ s.bound.toNat) :
    ∃ u, runUnitsThen [i, j] rest s = .next (rest u) ∧
      Wrote s u (encode s.cfg (shortLiteral s) i ++ encode s.cfg (shortLiteral s) j) ∧
      u = unitAfter j (unitAfter i { s with out := u.out, p := u.p }) := by
  obtain ⟨v, hi, hwrote, hv⟩ := (unitMeaning_encode i hr).1 (by rw [encode_length]; omega)
  have he := emitted_of_exec hi
  have hf : faulted v = false := by
    rw [hv, faulted_unitAfter]
    exact hr.1
  obtain ⟨m', hrv⟩ := he.ready hr hf
  have ⟨_, _, hcursor⟩ := hwrote
  have hroom : v.p.toNat + (encode v.cfg (shortLiteral v) j).length ≤ v.bound.toNat := by
    rwa [hcursor, he.bound_eq, he.shortLiteral_eq, encode_length, encode_length]
  obtain ⟨u, hj, hwrote', hu⟩ := (unitMeaning_encode j hrv).1 hroom
  rw [he.cfg_eq, he.shortLiteral_eq] at hwrote'
  have hfu : faulted u = false := by
    rw [hu, faulted_unitAfter]
    exact hf
  have hframe : { v with out := u.out, p := u.p } = unitAfter i { s with out := u.out, p := u.p } := by
    rw [hv]
    cases i <;> rfl
  refine ⟨u, ?_, hwrote.append hwrote', hu.trans (congrArg (unitAfter j) hframe)⟩
  rw [runUnitsThen_cons_of_exec _ _ hi, if_neg (by simp [hf]), runUnitsThen_singleton_of_exec _ hj,
    if_neg (by simp [hfu])]

/-! ### The RUN steps -/

/-- Settles O35, by whether the run is flushed. -/
theorem runStepEqual : Obligations.RunStepEqual := by
  intro s moves m hsilent hr hp hsel hlt hpx h61
  have hflush := runFull_or_lastPixel_iff h61
  have hready : Ready { bumpRun s with host := moves } m := hr
  refine ⟨fun hcount hlast => ?_, fun hfull hroom => ?_⟩
  · rw [step_of_runSelect hsilent ⟨hr.1, hr.2.1⟩ hp hsel hlt hpx
      (runSelect_of_counted ((not_congr hflush).mpr (not_or.mpr ⟨hcount, hlast⟩))), runUnitsThen_nil _ _ hready.1]
    rfl
  · have hbyte : runBytes s.cfg.tags (s.run + 1#6) = [byteOf (64 * s.cfg.tags.run.toNat + s.run.toNat)] := by
      rw [runBytes, BitVec.add_sub_cancel, tag_append_eq_byteOf]
    rw [step_of_runSelect hsilent ⟨hr.1, hr.2.1⟩ hp hsel hlt hpx (runSelect_of_flushed (hflush.mpr hfull)),
      runUnitsThen_singleton_of_fits (i := .run (s.run + 1#6)) _ hready hroom, ← hbyte]
    exact ⟨_, rfl, wrote_stored hr.2.2 hroom, rfl⟩

/-- Settles O36, by whether a run is pending: the literal alone, or the run's byte and then the literal. -/
theorem runStepDifferent : Obligations.RunStepDifferent := by
  intro s moves m px hsilent hr hp hsel hlt hpx hne
  have hready : Ready { s with host := moves } m := hr
  rw [runLiteral_eq_encode hsel, encode_length]
  refine ⟨fun hrun hfit => ?_, fun hrun hfit => ?_⟩
  · rw [step_of_runSelect hsilent ⟨hr.1, hr.2.1⟩ hp hsel hlt hpx (runSelect_of_literal hne hrun _),
      runUnitsThen_singleton_of_fits _ hready hfit]
    exact ⟨_, rfl, wrote_stored hr.2.2 (by rwa [encode_length]), rfl⟩
  · obtain ⟨u, hu, hwrote, hframe⟩ := runUnitsThen_pair_of_fits (i := .run s.run) (retire px) hready hfit
    rw [step_of_runSelect hsilent ⟨hr.1, hr.2.1⟩ hp hsel hlt hpx (runSelect_of_pending hne hrun _),
      ← tag_append_pred_eq_byteOf _ hrun]
    exact ⟨retire px u, hu, hwrote, congrArg (retire px) hframe⟩

end Sys2Proof.Machine

/-! PROOFS. The statements about the DELTA strategy (spec/44_delta.md). What a unit writes is `unitMeaning_encode`, so each
unit only needs its bytes spelled out as numbers. A DELTA step writes the encoding of `deltaUnit`, which
`deltaBytes_eq_encode` says is the bytes of R160 to R164. -/
namespace Sys2Proof.Machine

/-! ### The bytes of the three units -/

theorem byteOf_toNat (b : Byte) : byteOf b.toNat = b := by
  rw [byteOf, BitVec.ofInt_natCast, BitVec.ofNat_toNat, BitVec.setWidth_eq]

/-- A field over another, as a number (R71). -/
theorem toNat_append_eq_add {v w : Nat} (hi : BitVec v) (lo : BitVec w) :
    (hi ++ lo).toNat = 2 ^ w * hi.toNat + lo.toNat := by
  rw [BitVec.toNat_append, ← Nat.shiftLeft_add_eq_or_of_lt lo.isLt, Nat.shiftLeft_eq, Nat.mul_comm]

/-- A field in its range holds the value plus the bias: nothing is truncated (R73). -/
theorem biased_toNat (w : Nat) {v bias : Int} (hlo : -bias ≤ v) (hhi : v < 2 ^ w - bias) :
    ((biased w v bias).toNat : Int) = v + bias :=
  Int.sub_eq_iff_eq_add.mp (unbias_biased w hlo hhi)

theorem diffBytes_eq_byteOf (t : Tags) {dr dg db : Int} (hwf : (Instr.diff dr dg db).wf = true) :
    diffBytes t dr dg db = [byteOf (64 * t.diff.toNat + 16 * (dr + 2) + 4 * (dg + 2) + (db + 2))] := by
  simp only [Instr.wf, Bool.and_eq_true, decide_eq_true_eq] at hwf
  obtain ⟨⟨⟨⟨⟨hrlo, hrhi⟩, hglo⟩, hghi⟩, hblo⟩, hbhi⟩ := hwf
  have hvalue : ((t.diff ++ biased 2 dr 2 ++ biased 2 dg 2 ++ biased 2 db 2).toNat : Int) =
      64 * t.diff.toNat + 16 * (dr + 2) + 4 * (dg + 2) + (db + 2) := by
    simp only [toNat_append_eq_add]
    push_cast
    rw [biased_toNat 2 hrlo (by omega), biased_toNat 2 hglo (by omega), biased_toNat 2 hblo (by omega)]
    omega
  rw [diffBytes, ← hvalue]
  exact congrArg (fun b => [b]) (byteOf_toNat _).symm

theorem lumaBytes_eq_byteOf (t : Tags) {dg drg dbg : Int} (hwf : (Instr.luma dg drg dbg).wf = true) :
    lumaBytes t dg drg dbg = [byteOf (64 * t.luma.toNat + (dg + 32)), byteOf (16 * (drg + 8) + (dbg + 8))] := by
  simp only [Instr.wf, Bool.and_eq_true, decide_eq_true_eq] at hwf
  obtain ⟨⟨⟨⟨⟨hglo, hghi⟩, hrlo⟩, hrhi⟩, hblo⟩, hbhi⟩ := hwf
  have hnibbles : ((biased 4 drg 8 ++ biased 4 dbg 8).toNat : Int) = 16 * (drg + 8) + (dbg + 8) := by
    rw [toNat_append_eq_add]
    push_cast
    rw [biased_toNat 4 hrlo (by omega), biased_toNat 4 hblo (by omega)]
  rw [← biased_toNat 6 hglo (by omega), ← tag_append_eq_byteOf, ← hnibbles, byteOf_toNat]
  rfl

/-! ### The three units -/

/-- Settles O2: DIFF's encoding is its byte. -/
theorem diffMeaning : Obligations.DiffMeaning := by
  intro dr dg db s m hr hwf
  rw [← diffBytes_eq_byteOf _ hwf]
  exact unitMeaning_encode (.diff dr dg db) hr

/-- Settles O3: LUMA's encoding is its two bytes. -/
theorem lumaMeaning : Obligations.LumaMeaning := by
  intro dg drg dbg s m hr hwf
  rw [← lumaBytes_eq_byteOf _ hwf]
  exact unitMeaning_encode (.luma dg drg dbg) hr

/-- Settles O5: RGB's encoding is its four bytes. -/
theorem rgbMeaning : Obligations.RgbMeaning := fun r g b _ _ hr => unitMeaning_encode (.rgb r g b) hr

/-! ### The bytes of a pixel -/

theorem diffFits_iff (d : Deltas) :
    diffFits d = true ↔ (-2 ≤ d.dr ∧ d.dr ≤ 1) ∧ (-2 ≤ d.dg ∧ d.dg ≤ 1) ∧ (-2 ≤ d.db ∧ d.db ≤ 1) := by
  simp only [diffFits, inRange, Bool.and_eq_true, decide_eq_true_eq, and_assoc]

theorem lumaFits_iff (d : Deltas) :
    lumaFits d = true ↔ (-8 ≤ d.drg ∧ d.drg ≤ 7) ∧ (-32 ≤ d.dg ∧ d.dg ≤ 31) ∧ (-8 ≤ d.dbg ∧ d.dbg ≤ 7) := by
  simp only [lumaFits, inRange, Bool.and_eq_true, decide_eq_true_eq, and_assoc]

/-- The bytes of R160 to R164 are the encoding of the unit that DELTA selects. -/
theorem deltaBytes_eq_encode (c : Config) (px prev : Pixel) :
    deltaBytes c.tags px prev = encode c false (deltaUnit px prev) := by
  have hdiff := diffFits_iff (deltasOf px prev)
  have hluma := lumaFits_iff (deltasOf px prev)
  by_cases ha : px.a = prev.a
  · have hsame : ¬ alphaChanged px prev = true := by simp [alphaChanged, ha]
    rw [deltaBytes, if_neg (not_not_intro ha), deltaUnit, if_neg hsame]
    by_cases hd : diffFits (deltasOf px prev) = true
    · rw [if_pos hd, encode, diffBytes_eq_byteOf _ (wf_diff_of_fits hd)]
      exact if_pos (hdiff.mp hd)
    · rw [if_neg hd]
      refine (if_neg (mt hdiff.mpr hd)).trans ?_
      by_cases hl : lumaFits (deltasOf px prev) = true
      · rw [if_pos hl, encode, lumaBytes_eq_byteOf _ (wf_luma_of_fits hl)]
        exact if_pos (hluma.mp hl)
      · rw [if_neg hl]
        exact if_neg (mt hluma.mpr hl)
  · rw [deltaBytes, if_pos ha, deltaUnit_of_alpha ha]
    rfl

/-! ### The DELTA step -/

theorem shortLiteral_of_selDelta {s : State} (hsel : s.sel = selDelta) : shortLiteral s = false := by
  simp [shortLiteral, hsel, selRun, selDelta]

/-- DELTA never selects a RUN, so nothing follows its unit's bytes (R160). -/
theorem unitAfter_deltaUnit (px prev : Pixel) (s : State) : unitAfter (deltaUnit px prev) s = s :=
  ((unitAfter_eq _ s).resolve_left fun h => not_flushes_deltaUnit px prev h.1).2

/-- A DELTA step runs the one unit that `deltaUnit` selects (R106, R160). -/
theorem step_of_deltaUnit {s : State} {moves : List HostMove} {px : Pixel} (hsilent : Silent s moves) (hu : Unmarked s)
    (hp : s.phase = .pixels) (hsel : s.sel = selDelta) (hlt : s.pos.toNat < s.pxLen.toNat)
    (hpx : fetchPixel s s.pos = some px) :
    step s = runUnitsThen [deltaUnit px s.prev] (retire px) { s with host := moves } := by
  rw [step_of_silent s moves hsilent, advance_of_pixels (s := { s with host := moves }) hu hp hlt]
  exact pixelStep_of_selected (s := { s with host := moves }) hpx (selectUnits_of_selDelta px hsel)

/-- Settles O37: the step stores the encoding of `deltaUnit`, then PREV and POS move on. -/
theorem deltaStep : Obligations.DeltaStep := by
  intro s moves m px hsilent hr hp hsel hlt hpx hfit
  have hru : Ready { s with host := moves } m := hr
  obtain ⟨hf, hrefused, ho⟩ := hr
  have hbytes : deltaBytes s.cfg.tags px s.prev = encode s.cfg (shortLiteral s) (deltaUnit px s.prev) := by
    rw [shortLiteral_of_selDelta hsel, deltaBytes_eq_encode]
  rw [hbytes] at hfit ⊢
  have hroom : s.p.toNat + unitLength (shortLiteral s) (deltaUnit px s.prev) ≤ s.bound.toNat := by
    rwa [encode_length] at hfit
  rw [step_of_deltaUnit hsilent ⟨hf, hrefused⟩ hp hsel hlt hpx, runUnitsThen_singleton_of_fits _ hru hroom,
    unitAfter_deltaUnit]
  exact ⟨_, rfl, wrote_stored ho hfit, rfl⟩

/-! ### The arithmetic of the deltas -/

theorem wrapDelta_bounds (x y : Byte) : -128 ≤ wrapDelta x y ∧ wrapDelta x y ≤ 127 :=
  ⟨BitVec.le_toInt (x - y), BitVec.toInt_le⟩

/-- A delta is the channels' difference modulo 256 (R8, R165). -/
theorem wrapDelta_modEq (x y : Byte) : (x.toNat - y.toNat - wrapDelta x y : Int) % 256 = 0 := by
  have hx := x.isLt
  have hy := y.isLt
  rw [wrapDelta, BitVec.toInt_eq_toNat_cond, BitVec.toNat_sub]
  split <;> omega

/-- The deltas with the two luma differences wrapped to eight bits once more (R165). -/
def rewrapLuma (d : Deltas) : Deltas :=
  { d with drg := (BitVec.ofInt 8 d.drg).toInt, dbg := (BitVec.ofInt 8 d.dbg).toInt }

/-- Wrapping moves a difference by a multiple of 256, too far to reach a nibble's range from outside it: a delta in
[-128, 127] less one in LUMA's range [-32, 31] is at most 159 from zero. -/
theorem rewrapped_eq {v : Int} (hlo : -159 ≤ v) (hhi : v ≤ 159)
    (h : (-8 ≤ v ∧ v ≤ 7) ∨ (-8 ≤ (BitVec.ofInt 8 v).toInt ∧ (BitVec.ofInt 8 v).toInt ≤ 7)) :
    (BitVec.ofInt 8 v).toInt = v := by
  have hmod : (BitVec.ofInt 8 v).toInt % 256 = v % 256 := by
    rw [BitVec.toInt_ofInt]
    exact Int.bmod_emod
  have hwlo := BitVec.le_toInt (BitVec.ofInt 8 v)
  have hwhi := BitVec.toInt_le (x := BitVec.ofInt 8 v)
  omega

/-- Where LUMA is chosen, by the exact differences or by the wrapped ones, the two are the same (R165). -/
theorem rewrapLuma_eq (px prev : Pixel)
    (h : lumaFits (deltasOf px prev) = true ∨ lumaFits (rewrapLuma (deltasOf px prev)) = true) :
    rewrapLuma (deltasOf px prev) = deltasOf px prev := by
  obtain ⟨hrlo, hrhi⟩ := wrapDelta_bounds px.r prev.r
  obtain ⟨hblo, hbhi⟩ := wrapDelta_bounds px.b prev.b
  rw [lumaFits_iff, lumaFits_iff] at h
  have hg : -32 ≤ wrapDelta px.g prev.g ∧ wrapDelta px.g prev.g ≤ 31 := h.elim (·.2.1) (·.2.1)
  have hdrg : (BitVec.ofInt 8 (deltasOf px prev).drg).toInt = (deltasOf px prev).drg :=
    rewrapped_eq (by simp only [deltasOf]; omega) (by simp only [deltasOf]; omega) (h.imp (·.1) (·.1))
  have hdbg : (BitVec.ofInt 8 (deltasOf px prev).dbg).toInt = (deltasOf px prev).dbg :=
    rewrapped_eq (by simp only [deltasOf]; omega) (by simp only [deltasOf]; omega) (h.imp (·.2.2) (·.2.2))
  rw [rewrapLuma, hdrg, hdbg]

/-- Settles O38: the deltas are wrapped differences, and `rewrapLuma` is the identity where LUMA is chosen. -/
theorem rewrappingLumaChangesNothing : Obligations.RewrappingLumaChangesNothing := by
  intro px prev t d e
  have hkept : lumaFits d = true ∨ lumaFits e = true → e = d := rewrapLuma_eq px prev
  refine ⟨⟨wrapDelta_modEq _ _, wrapDelta_bounds _ _⟩, ⟨wrapDelta_modEq _ _, wrapDelta_bounds _ _⟩,
    ⟨wrapDelta_modEq _ _, wrapDelta_bounds _ _⟩, rfl, rfl, ⟨fun h => ?_, fun h => ?_⟩, fun h => ?_⟩
  · rw [hkept (Or.inl h)]
    exact h
  · rw [← hkept (Or.inr h)]
    exact h
  · rw [hkept (Or.inl h)]

end Sys2Proof.Machine

/-! PROOFS. The statements about the CACHE strategy (spec/45_cache.md). What a unit writes is `unitMeaning_encode`, and a
CACHE step runs the one unit of `cacheSelect`. Which pixels hit follows from two facts: a selection leaves its pixel in
the slot it hashes to, and no two pixels hit in one slot. -/
namespace Sys2Proof.Machine

/-- Settles O1: INDEX's encoding is its byte. -/
theorem indexMeaning : Obligations.IndexMeaning := by
  intro b s m hr
  rw [← tag_append_eq_byteOf]
  exact unitMeaning_encode (.index b) hr

/-! ### Slots and hits -/

@[simp] theorem cacheRead_cacheWrite_same (b : Bucket) (px : Pixel) (s : State) : cacheRead (cacheWrite b px s) b = px :=
  Vector.getElem_set_self _

/-- A miss overwrites one slot only (R182). -/
theorem cacheRead_cacheWrite_of_ne {b c : Bucket} (h : c ≠ b) (px : Pixel) (s : State) :
    cacheRead (cacheWrite b px s) c = cacheRead s c :=
  Vector.getElem_set_ne b.isLt c.isLt fun heq => h (BitVec.eq_of_toNat_eq heq.symm)

theorem cacheHit_iff (s : State) (px : Pixel) :
    cacheHit s px = true ↔ cacheRead s (hashOf s.cfg.hash px) = px :=
  decide_eq_true_iff

/-- One slot holds one pixel, so of two pixels of a bucket at most one hits (R186). -/
theorem eq_of_cacheHit {s : State} {px q : Pixel} (hpx : cacheHit s px = true) (hq : cacheHit s q = true)
    (hb : hashOf s.cfg.hash q = hashOf s.cfg.hash px) : q = px := by
  rw [cacheHit_iff] at hpx hq
  rw [← hq, hb, hpx]

/-! ### What CACHE selects -/

theorem cacheSelect_of_miss {s : State} {px : Pixel} (h : cacheHit s px = false) :
    cacheSelect px s = (cacheWrite (hashOf s.cfg.hash px) px s, [.rgba px.r px.g px.b px.a]) :=
  if_neg (Bool.eq_false_iff.mp h)

@[simp] theorem cacheSelect_cfg (px : Pixel) (s : State) : (cacheSelect px s).1.cfg = s.cfg := by
  rcases cacheSelect_cases px s with ⟨-, h⟩ | ⟨-, h⟩ <;> rw [h]
  rfl

/-- After a pixel, hit or miss, its slot holds it (R185). -/
theorem cacheHit_cacheSelect_self (px : Pixel) (s : State) : cacheHit (cacheSelect px s).1 px = true := by
  rcases cacheSelect_cases px s with ⟨hhit, h⟩ | ⟨-, h⟩ <;> rw [h]
  · exact hhit
  · exact cacheHit_of_cacheWrite rfl

/-- A pixel of another bucket changes nothing for `px` (R186). -/
theorem cacheHit_cacheSelect_of_ne {s : State} {px q : Pixel} (h : hashOf s.cfg.hash q ≠ hashOf s.cfg.hash px) :
    cacheHit (cacheSelect q s).1 px = cacheHit s px := by
  rcases cacheSelect_cases q s with ⟨-, hs⟩ | ⟨-, hs⟩ <;> rw [hs]
  rw [Bool.eq_iff_iff, cacheHit_iff, cacheHit_iff, cacheWrite_cfg, cacheRead_cacheWrite_of_ne h.symm]

/-- Settles O41: `px` hits after its own selection and after one of another bucket; after a different pixel of its bucket
that pixel hits, so `px` does not. None of this needs the first occurrence to be a miss: a hit leaves the slot as well. -/
theorem missThenHit : Obligations.MissThenHit := by
  intro s px q _ b s1
  have hcfg : s1.cfg = s.cfg := cacheSelect_cfg px s
  have hcfg2 : (cacheSelect q s1).1.cfg = s.cfg := (cacheSelect_cfg q s1).trans hcfg
  have hhit : cacheHit s1 px = true := cacheHit_cacheSelect_self px s
  refine ⟨?_, fun hother => ?_, fun hsame hne => ?_⟩
  · rw [cacheSelect_of_hit hhit, hcfg]
  · have hkept : cacheHit (cacheSelect q s1).1 px = true :=
      (cacheHit_cacheSelect_of_ne (by rwa [hcfg])).trans hhit
    rw [cacheSelect_of_hit hkept, hcfg2]
  · have hlost : cacheHit (cacheSelect q s1).1 px = false := Bool.eq_false_iff.mpr fun hpx =>
      hne (eq_of_cacheHit hpx (cacheHit_cacheSelect_self q s1) (by rwa [hcfg2]))
    rw [cacheSelect_of_miss hlost]

/-! ### The CACHE step -/

theorem shortLiteral_of_selCache {s : State} (hsel : s.sel = selCache) : shortLiteral s = false := by
  simp [shortLiteral, hsel, selRun, selCache]

/-- A CACHE step runs the units that `cacheSelect` answers (R106, R180). -/
theorem step_of_cacheSelect {s v : State} {moves : List HostMove} {px : Pixel} {units : List Instr}
    (hsilent : Silent s moves) (hu : Unmarked s) (hp : s.phase = .pixels) (hsel : s.sel = selCache)
    (hlt : s.pos.toNat < s.pxLen.toNat) (hpx : fetchPixel s s.pos = some px)
    (hcache : cacheSelect px { s with host := moves } = (v, units)) :
    step s = runUnitsThen units (retire px) v := by
  rw [step_of_silent s moves hsilent, advance_of_pixels (s := { s with host := moves }) hu hp hlt]
  exact pixelStep_of_selected (s := { s with host := moves }) hpx
    ((selectUnits_of_selCache (s := { s with host := moves }) px hsel).trans (congrArg some hcache))

/-- Settles O39, by whether the pixel hits: the INDEX byte, or the slot and then the literal. -/
theorem cacheStep : Obligations.CacheStep := by
  intro s moves m px hsilent hr hp hsel hlt hpx b
  have hiff : cacheHit { s with host := moves } px = true ↔ s.cache[b.toNat] = px := cacheHit_iff _ px
  refine ⟨fun hhit hfit => ?_, fun hmiss hfit => ?_⟩
  · have hready : Ready { s with host := moves } m := hr
    rw [step_of_cacheSelect hsilent ⟨hr.1, hr.2.1⟩ hp hsel hlt hpx (cacheSelect_of_hit (hiff.mpr hhit)),
      runUnitsThen_singleton_of_fits (i := .index b) _ hready hfit, ← tag_append_eq_byteOf]
    exact ⟨_, rfl, wrote_stored hr.2.2 hfit, rfl⟩
  · have hready : Ready (cacheWrite b px { s with host := moves }) m := hr
    have hlong : shortLiteral (cacheWrite b px { s with host := moves }) = false := shortLiteral_of_selCache hsel
    rw [step_of_cacheSelect hsilent ⟨hr.1, hr.2.1⟩ hp hsel hlt hpx
        (cacheSelect_of_miss (Bool.eq_false_iff.mpr (mt hiff.mp hmiss))),
      runUnitsThen_singleton_of_fits (i := .rgba px.r px.g px.b px.a) _ hready (by rw [hlong]; exact hfit), hlong]
    exact ⟨_, rfl, wrote_stored hr.2.2 hfit, rfl, cacheRead_cacheWrite_same b px s,
      fun k hk => cacheRead_cacheWrite_of_ne hk px s⟩

/-! ### The published mix -/

/-- A residue modulo 64 fits in a bucket's six bits (R181). -/
theorem publishedHash_toNat (px : Pixel) :
    (publishedHash px).toNat = (3 * px.r.toNat + 5 * px.g.toNat + 7 * px.b.toNat + 11 * px.a.toNat) % 64 := by
  rw [publishedHash, BitVec.toNat_ofNat]
  exact Nat.mod_mod _ _

/-- Settles O40: the default mix is the model's `publishedHash`, whose name the theorem shares. -/
theorem Cache.publishedHash : Obligations.PublishedHash := publishedHash_toNat

end Sys2Proof.Machine

/-! PROOFS. The statement about a step that faults (spec/60_exceptions.md). Only the fetch and the units of a step fault,
and each of them leaves alone the registers that the rest of the step would write. -/
namespace Sys2Proof.Machine

/-- Nothing of the rest of a step, after its units, was performed (R203). -/
def RestSkipped (s t : State) : Prop :=
  t.phase = s.phase ∧ t.pos = s.pos ∧ t.prev = s.prev ∧ t.outLen = s.outLen ∧ t.err = s.err ∧ t.refused = s.refused

/-! ### What does not fault -/

theorem faulted_startCommand (cmd : StartCmd) (s : State) : faulted (startCommand cmd s) = faulted s := by
  rcases startCommand_cases cmd s with ⟨-, -, h⟩ | ⟨-, h⟩ <;> rw [h] <;> rfl

theorem faulted_validateStep (s : State) : faulted (validateStep s) = faulted s := by
  rcases validateStep_cases s with ⟨-, h⟩ | ⟨-, h⟩ <;> rw [h] <;> rfl

theorem faulted_allocStep (s : State) : faulted (allocStep s) = faulted s := by
  rcases allocStep_cases s with ⟨-, h⟩ | ⟨-, h⟩ <;> rw [h] <;> rfl

/-! ### What a fault leaves unchanged -/

theorem Emitted.restSkipped {units : List Instr} {s u : State} (h : Emitted units s u) : RestSkipped s u := by
  obtain ⟨_, _, _, _, rfl⟩ := h.frame
  exact ⟨rfl, rfl, rfl, rfl, rfl, rfl⟩

/-- Where the rest of a step records no fault of its own, a fault is one of its units', and the rest is not performed. -/
theorem restSkipped_of_runUnitsThen {units : List Instr} {rest : State → State} {s t : State} (hs : faulted s = false)
    (hrun : runUnitsThen units rest s = .next t) (hrest : ∀ u, faulted (rest u) = faulted u)
    (ht : faulted t = true) : RestSkipped s t := by
  obtain ⟨u, he, ⟨-, rfl⟩ | ⟨hno, rfl⟩⟩ := emitted_of_runUnitsThen hs hrun
  · exact he.restSkipped
  · rw [hrest, he.faulted_eq hs, hno] at ht
    cases ht

/-- A fetch that fails records its bit only (R51), and a selection writes RUN or CACHE before its units. -/
theorem restSkipped_pixelStep {s t : State} (hs : faulted s = false) (hstep : pixelStep s = .next t)
    (ht : faulted t = true) : RestSkipped s t := by
  rcases pixelStep_selected hstep with ⟨-, rfl⟩ | ⟨px, v, units, -, hsel, hrun⟩
  · exact ⟨rfl, rfl, rfl, rfl, rfl, rfl⟩
  · have hskip : RestSkipped v t :=
      restSkipped_of_runUnitsThen (hsel.faulted_eq.trans hs) hrun (fun _ => rfl) ht
    obtain ⟨_, _, rfl⟩ := hsel.frame
    exact hskip

theorem restSkipped_advance {s t : State} (hstep : advance s = .next t) (ht : faulted t = true) : RestSkipped s t := by
  obtain ⟨⟨hs, -⟩, ⟨-, rfl⟩ | ⟨-, rfl⟩ | ⟨-, rfl⟩ | ⟨-, hrun⟩ | ⟨-, -, rfl⟩ | ⟨-, -, hpixel⟩ | ⟨-, hrun⟩⟩ :=
    advance_cases s t hstep
  · exact absurd (hs.symm.trans ht) (by decide)
  · rw [faulted_validateStep, hs] at ht
    cases ht
  · rw [faulted_allocStep, hs] at ht
    cases ht
  · exact restSkipped_of_runUnitsThen hs hrun (fun _ => rfl) ht
  · exact absurd (hs.symm.trans ht) (by decide)
  · exact restSkipped_pixelStep hs hpixel ht
  · exact restSkipped_of_runUnitsThen hs hrun (fun _ => rfl) ht

/-- Settles O24: a START records no fault, and a fault of the block's own step skips the rest of it. -/
theorem faultStopsTheStep : Obligations.FaultStopsTheStep := by
  intro s t hstep hs ht
  rcases step_cases s t hstep with ⟨cmd, moves, -, rfl⟩ | ⟨moves, -, hadv⟩
  · rw [faulted_startCommand] at ht
    exact absurd (hs.symm.trans ht) (by decide)
  · exact restSkipped_advance (s := { s with host := moves }) hadv ht

end Sys2Proof.Machine
